-- ==== Sys2Proof/Word.lean ====
section
/-! DEFINITION. The plainest words of the FCA-8: bytes, word positions of the level stream, and the bits of a wire field. -/

namespace Sys2Proof

/-- One byte of a frame, of the boot record, or of an encoded line. -/
abbrev Byte := BitVec 8

/-- A word position of the level stream: a 40-bit count that wraps from 2^40 − 1 to 0 (R1). -/
abbrev Position := BitVec 40

/-- A word position in sixteenths of a word, as Z is kept (chapter 2); it wraps with the position. -/
abbrev FinePosition := BitVec 44

/-- A station number on the share line, 0..15: receivers 0..7, viewers 8..15. -/
abbrev Station := Fin 16

/-- A receiver station number 0..7, as the straps give it. -/
abbrev Receiver := Fin 8

/-- The number of a chart slot, 0..3. -/
abbrev SlotNo := Fin 4

/-- A share key as two bytes: opener station and opener sequence (R179). -/
structure Key where
  opener : Byte
  sequence : Byte
deriving DecidableEq, Repr

end Sys2Proof
end

