-- ==== Sys2Proof/Config.lean ====
section
/-! DEFINITION. The figures the FCA-8 fixes for good: sizes of its tables and lists, and its periods in station time (notes/assumptions/1.md). -/

namespace Sys2Proof.Config

/-- Words in a window of the level stream (chapter 1). -/
def windowWords : Nat := 1200
/-- Words the word history holds, and the age at which a closed line commits (R17, R32). -/
def historyWords : Nat := 9600
/-- Pixels in a line. -/
def linePixels : Nat := 1200
/-- Closed lines the tail queue holds at most (R31). -/
def tailRoom : Nat := 9
/-- The last local index the framer cuts (R31). -/
def lastLocalIndex : Nat := 2055
/-- Pages of the page pool (R53). -/
def poolPages : Nat := 8704
/-- Free pages at which a run of pool-empty drops is over (R54). -/
def poolRecovered : Nat := 64
/-- Shared indices of a chart (R65). -/
def chartLines : Nat := 2048
/-- Entries of the outbound queue (R103). -/
def queueRoom : Nat := 32
/-- LINE fragments among the entries of the outbound queue (R104). -/
def lineRoom : Nat := 24
/-- Line entries of the claim table (R137). -/
def claimRoom : Nat := 64
/-- Entries of the reassembly table (R151). -/
def assemblyRoom : Nat := 6
/-- Run bytes a LINE fragment carries at most (R145). -/
def fragmentBytes : Nat := 240
/-- Accepted phasing pulses the pulse list holds (R22). -/
def pulseRoom : Nat := 16
/-- The limit of every minute counter (R176). -/
def counterLimit : Nat := 65535

/-- A gain-down pulse, in ms (R12). -/
def gainDownMs : Nat := 20
/-- The phasing timer's end, in ms (R26). -/
def phasingMs : Nat := 20000
/-- The want timer's period, in ms (R124). -/
def wantMs : Nat := 4000
/-- The tally timer's period, in ms (R122). -/
def tallyMs : Nat := 2000
/-- The ROSTER timer's period, in ms (R160). -/
def rosterMs : Nat := 60000
/-- The ROSTER stagger per station number, in ms (R160). -/
def rosterStaggerMs : Nat := 200
/-- The minute timer's period, in ms (R177). -/
def minuteMs : Nat := 60000
/-- The silence after which an unbound LIVE slot closes, in ms (R95). -/
def silenceMs : Nat := 120000
/-- The silence after which a station is declared absent, in ms (R158). -/
def absentMs : Nat := 150000
/-- The life of an ACTIVE or HEARD claim entry, in ms (R140, R141). -/
def claimMs : Nat := 2000
/-- The life of a reassembly entry, in ms (R152). -/
def assemblyMs : Nat := 2000
/-- The silent time, in ms (R107). -/
def silentMs : Nat := 10000
/-- DAMAGED completions in a row that bring silent mode (R107). -/
def damageLimit : Nat := 16
/-- From the win of an OPEN to its last end bit, in µs: 88 bit times of 4 µs (R114). -/
def openTailUs : Nat := 352

end Sys2Proof.Config
end

