-- ==== Sys2Proof/Syntax.lean ====
section
/-! DEFINITION. The commands of the FCA-8: one constructor for each row of spec/opcode_table.json.

The table's rows name the part's events and give them no operands.  The operands below are what the rule of each
event reads from outside: the station time of the event (in µs), the bits of a level word, the bits read of a frame,
what the boot memory answers, the slot or entry a timer belongs to (notes/assumptions/2.md, 3.md). -/

namespace Sys2Proof

/-- What the boot memory and its bus answer to a boot read (R171). -/
structure BootMemory where
  /-- BMD is found low when the transaction would begin. -/
  bmdLow : Bool
  /-- The device acknowledges its address for writing. -/
  ackWrite : Bool
  /-- The device acknowledges the offset byte. -/
  ackOffset : Bool
  /-- The device acknowledges its address for reading. -/
  ackRead : Bool
  /-- The bytes it gives, in order. -/
  bytes : List Byte
deriving DecidableEq, Repr

/-- The two things RESETN (or the supply) does: it goes low, or it is released with the straps as they stand (R169, R170). -/
inductive ResetPin where
  /-- RESETN low, or supply not yet good: the part is in reset. -/
  | low
  /-- RESETN released (supply good), with STN2..STN0 read as a number, and the boot memory that then answers. -/
  | released (straps : Receiver) (memory : BootMemory)
deriving DecidableEq, Repr

/-- When LWF marked the first bit of a level word (R1). -/
inductive WordMark where
  | beforeEndOfBoot | afterEndOfBoot
deriving DecidableEq, Repr

/-- A level word whose sixteenth bit has come (R1): when it was marked, and its bits, the first the most significant. -/
structure MarkedWord where
  mark : WordMark
  bits : BitVec 16
deriving DecidableEq, Repr

/-- How the send of an own frame ends (R106). -/
inductive SendOutcome where
  /-- The last end bit was read and the echo is intact. -/
  | sent
  /-- A bit was read back at another level than the one driven; `bit` counts the wire bits before it, from 0 at the first arbitration bit. -/
  | bitError (bit : Nat)
  /-- Every bit driven was read back and the echo is then found damaged: the end bits read, the last of them dominant. -/
  | damagedEcho (endBits : List Bool)
deriving DecidableEq, Repr

/-- The kinds of frame of R110. -/
inductive Kind where
  | openK | closeK | restartK | dropK | tallyK | wantK | claimK | askK | describeK | rosterK | reportK | noteK | lineK
deriving DecidableEq, Repr

/-- The kinds the row DESCRIBE_NOTE_REPORT_HEARD stands for. -/
inductive InfoKind where
  | describe | note | report
deriving DecidableEq, Repr

/-- The commands.  `t` is always the station time of the event, in µs.  The bits of a frame are the levels read, dominant false and recessive true, up to the bit at which the SLC is done with the frame; `tail` are those after the arbitration field, whose sender is given and whose priority and kind are given or those of the kind the row names. -/
inductive Instr where
  /-- RESET (R169). -/
  | reset (pin : ResetPin)
  /-- END_OF_BOOT (R169): `steps` is how many steps of the boot read were still taken before it (R171). -/
  | endOfBoot (steps : Nat)
  /-- LEVEL_WORD (R1). -/
  | levelWord (t : Nat) (word : MarkedWord)
  /-- WORD_DISCARD (R1). -/
  | wordDiscard (t : Nat)
  /-- GAIN_DOWN_END (R12). -/
  | gainDownEnd (t : Nat)
  /-- PHASING_TIMEOUT (R26). -/
  | phasingTimeout (t : Nat)
  /-- LINE_IDLE (R98). -/
  | lineIdle (t : Nat)
  /-- FRAME_START (R101). -/
  | frameStart (t : Nat)
  /-- ARBITRATION_LOST (R101): at which of the 11 arbitration bits, 0..10, recessive was driven and dominant read. -/
  | arbitrationLost (t : Nat) (bit : Nat)
  /-- ARBITRATION_WON (R102). -/
  | arbitrationWon (t : Nat)
  /-- SEND_COMPLETION (R106). -/
  | sendCompletion (t : Nat) (outcome : SendOutcome)
  /-- SILENT_END (R108). -/
  | silentEnd (t : Nat)
  /-- FRAME_DAMAGED (R109): all bits after the start bit. -/
  | frameDamaged (t : Nat) (bits : List Bool)
  /-- FRAME_MALFORMED (R110). -/
  | frameMalformed (t : Nat) (priority : BitVec 2) (sender : Station) (kind : BitVec 5) (tail : List Bool)
  /-- CLASH (R112): the sender is own station. -/
  | clash (t : Nat) (priority : BitVec 2) (kind : BitVec 5) (tail : List Bool)
  /-- OPEN_HEARD (R88). -/
  | openHeard (t : Nat) (sender : Station) (tail : List Bool)
  /-- CLOSE_HEARD (R94). -/
  | closeHeard (t : Nat) (sender : Station) (tail : List Bool)
  /-- DROP_HEARD (R76). -/
  | dropHeard (t : Nat) (sender : Station) (tail : List Bool)
  /-- TALLY_HEARD (R118). -/
  | tallyHeard (t : Nat) (sender : Station) (tail : List Bool)
  /-- WANT_HEARD (R130). -/
  | wantHeard (t : Nat) (sender : Station) (tail : List Bool)
  /-- CLAIM_HEARD (R138). -/
  | claimHeard (t : Nat) (sender : Station) (tail : List Bool)
  /-- LINE_HEARD (R150). -/
  | lineHeard (t : Nat) (sender : Station) (tail : List Bool)
  /-- RESTART_HEARD (R165). -/
  | restartHeard (t : Nat) (sender : Station) (tail : List Bool)
  /-- ASK_HEARD (R162). -/
  | askHeard (t : Nat) (sender : Station) (tail : List Bool)
  /-- ROSTER_HEARD (R157). -/
  | rosterHeard (t : Nat) (sender : Station) (tail : List Bool)
  /-- DESCRIBE_NOTE_REPORT_HEARD (R111). -/
  | infoHeard (t : Nat) (kind : InfoKind) (sender : Station) (tail : List Bool)
  /-- TALLY_EXPIRY (R122). -/
  | tallyExpiry (t : Nat)
  /-- WANT_TIMER_EXPIRY (R124). -/
  | wantTimerExpiry (t : Nat) (slot : SlotNo)
  /-- SWEEP_DEADLINE (R63). -/
  | sweepDeadline (t : Nat) (slot : SlotNo)
  /-- SILENCE_CLOSE (R95). -/
  | silenceClose (t : Nat) (slot : SlotNo)
  /-- CLAIM_LAPSE (R147): the own ACTIVE entry of this key and shared index. -/
  | claimLapse (t : Nat) (key : Key) (index : Nat)
  /-- HEARD_LAPSE (R148): the HEARD entry of this key, shared index and claimant. -/
  | heardLapse (t : Nat) (key : Key) (index : Nat) (claimant : Receiver)
  /-- REASSEMBLY_TIMEOUT (R152): the entry of this sender, key and shared index. -/
  | reassemblyTimeout (t : Nat) (sender : Receiver) (key : Key) (index : Nat)
  /-- PEER_ABSENT (R158). -/
  | peerAbsent (t : Nat) (station : Station)
  /-- ROSTER_EXPIRY (R160). -/
  | rosterExpiry (t : Nat)
  /-- MINUTE_EXPIRY (R177). -/
  | minuteExpiry (t : Nat)
  /-- LINE_BUSY (R98). -/
  | lineBusy (t : Nat)
deriving DecidableEq, Repr

end Sys2Proof
end

