-- ==== Sys2Proof/Machine/Kinds.lean ====
section
/-! DEFINITION. The kind table of R110: code, priority class and allowed data lengths of each frame kind. -/

namespace Sys2Proof.Machine

/-- The kind code (R110). -/
def kindCode : Kind → BitVec 5
  | .openK => 0x01
  | .closeK => 0x02
  | .restartK => 0x03
  | .dropK => 0x04
  | .tallyK => 0x08
  | .wantK => 0x09
  | .claimK => 0x0A
  | .askK => 0x0B
  | .describeK => 0x0C
  | .rosterK => 0x10
  | .reportK => 0x11
  | .noteK => 0x12
  | .lineK => 0x18

/-- The priority class (R110). -/
def kindClass : Kind → BitVec 2
  | .openK | .closeK | .restartK | .dropK => 0
  | .tallyK | .wantK | .claimK | .askK | .describeK => 1
  | .rosterK | .reportK | .noteK => 2
  | .lineK => 3

/-- Whether the table allows this many data bytes for the kind (R110). -/
def lengthAllowed : Kind → Nat → Bool
  | .openK, n => n == 6
  | .closeK, n => n == 5
  | .restartK, n => n == 2
  | .dropK, n => n == 2
  | .tallyK, n => n == 20
  | .wantK, n => n == 26
  | .claimK, n => n == 24
  | .askK, n => n == 2
  | .describeK, n => n == 3 || n == 17
  | .rosterK, n => n == 8
  | .reportK, n => n == 32
  | .noteK, n => n == 6
  | .lineK, n => decide (9 ≤ n) && decide (n ≤ 248)

/-- Every kind, in the table's order. -/
def allKinds : List Kind :=
  [.openK, .closeK, .restartK, .dropK, .tallyK, .wantK, .claimK, .askK, .describeK, .rosterK, .reportK, .noteK, .lineK]

/-- The kind a code names, if any (R110). -/
def kindOfCode (code : BitVec 5) : Option Kind :=
  allKinds.find? (fun k => kindCode k == code)

/-- Whether priority, kind code and length fit together; a frame for which they do not is malformed (R110). -/
def frameFits (priority : BitVec 2) (code : BitVec 5) (length : Nat) : Bool :=
  match kindOfCode code with
  | none => false
  | some k => kindClass k == priority && lengthAllowed k length

/-- The kind of frame an InfoKind stands for. -/
def infoKind : InfoKind → Kind
  | .describe => .describeK
  | .note => .noteK
  | .report => .reportK

end Sys2Proof.Machine
end

