-- ==== Sys2Proof/Machine/Wire.lean ====
section
/-! DEFINITION. The frame on the wire in both directions: arbitration field, check sequence and the bits a sender drives; and what a receiver makes of the bits it reads (R98 to R100). -/

namespace Sys2Proof.Machine

/-! ## The bits a sender drives (R99, R100, R179) -/

/-- The bits of a field, most significant first. -/
def fieldBits {n : Nat} (w : BitVec n) : List Bool := (List.range n).map (fun i => w.getMsbD i)

/-- The two bytes of a field, most significant first (R179). -/
def bytes16 (w : BitVec 16) : List Byte := [w.extractLsb' 8 8, w.extractLsb' 0 8]

/-- The arbitration field: priority, sender, kind; as a number priority × 512 + sender × 32 + kind (R99, R179). -/
def arbitrationField (priority : BitVec 2) (sender : Station) (kind : BitVec 5) : BitVec 11 :=
  (priority ++ BitVec.ofNat 4 sender.val) ++ kind

/-- The arbitration field of a frame of a kind from a sender (R99, R110). -/
def kindField (k : Kind) (sender : Station) : BitVec 11 := arbitrationField (kindClass k) sender (kindCode k)

/-- One bit into the check register (R100). -/
def checkStep (register : BitVec 16) (bit : Bool) : BitVec 16 :=
  let shifted := register <<< 1
  if register.msb != bit then shifted ^^^ 0x1021 else shifted

/-- The check register over the bits of an arbitration field and the bytes that follow it (R100). -/
def checkOver (field : List Bool) (bytes : List Byte) : BitVec 16 :=
  (field ++ bytes.flatMap fieldBits).foldl checkStep 0xFFFF

/-- The check sequence over arbitration field, length and data (R100). -/
def checkSequence (arbitration : BitVec 11) (data : List Byte) : BitVec 16 :=
  checkOver (fieldBits arbitration) (BitVec.ofNat 8 data.length :: data)

/-- A byte on the wire: a dominant separator and its eight bits (R99). -/
def wireByte (b : Byte) : List Bool := false :: fieldBits b

/-- Length, data and check sequence, each byte behind its separator (R99). -/
def packedBits (arbitration : BitVec 11) (data : List Byte) : List Bool :=
  (BitVec.ofNat 8 data.length :: data ++ bytes16 (checkSequence arbitration data)).flatMap wireByte

/-- The bits the sender drives after the start bit and before the end bits (R99). -/
def drivenBits (arbitration : BitVec 11) (data : List Byte) : List Bool :=
  fieldBits arbitration ++ packedBits arbitration data

/-- The seven recessive end bits (R99). -/
def endBits : List Bool := List.replicate 7 true

/-- The bits of a frame after its arbitration field: length, data and check sequence with their separators, and the end bits (R99). -/
def tailBits (arbitration : BitVec 11) (data : List Byte) : List Bool := packedBits arbitration data ++ endBits

/-- A whole frame on the wire: start bit, arbitration field, and the rest (R99). -/
def wireFrame (arbitration : BitVec 11) (data : List Byte) : List Bool :=
  false :: fieldBits arbitration ++ tailBits arbitration data

/-- The recessive run after these bits, as the SLC counts it, 0..11 (R98). -/
def recessiveAfter (bits : List Bool) : Nat := min 11 (bits.reverse.takeWhile id).length

/-! ## What a receiver makes of the bits it reads (R99, R100) -/

/-- The receiver's judgement at the last of the bits read. -/
inductive Verdict where
  /-- The frame is not judged at this bit: it is still being read, or was done with at an earlier one. -/
  | undecided
  /-- At this bit the frame is found damaged. -/
  | damaged
  /-- This bit is the last end bit of an intact frame of these fields. -/
  | intact (priority : BitVec 2) (sender : Station) (kind : BitVec 5) (data : List Byte)
deriving DecidableEq, Repr

/-- The frame is intact. -/
def Verdict.isIntact : Verdict → Bool
  | .intact .. => true
  | _ => false

/-- Bytes taken from the bits read. -/
inductive BytesRead where
  /-- The bits stop before the last of the bytes, or a separator before the last bit was recessive. -/
  | unread
  /-- The last bit is a separator, and it is recessive (R99). -/
  | broken
  /-- The bytes, and the bits after them. -/
  | got (bytes : List Byte) (rest : List Bool)
deriving DecidableEq, Repr

/-- The number that bits spell, most significant first. -/
def bitsValue (bits : List Bool) : Nat := bits.foldl (fun n b => 2 * n + b.toNat) 0

/-- Reads bytes, each behind its separator (R99). -/
def readBytes : Nat → List Bool → BytesRead
  | 0, bits => .got [] bits
  | _ + 1, [] => .unread
  | _ + 1, true :: rest => if rest.isEmpty then .broken else .unread
  | n + 1, false :: rest =>
      if rest.length < 8 then .unread
      else
        match readBytes n (rest.drop 8) with
        | .got bytes more => .got (BitVec.ofNat 8 (bitsValue (rest.take 8)) :: bytes) more
        | other => other

/-- Reads the end bits of a frame: a dominant one damages it (R99). -/
def readEnd (frame : Verdict) : Nat → List Bool → Verdict
  | 0, [] => frame
  | n + 1, true :: rest => readEnd frame n rest
  | _ + 1, [false] => .damaged
  | _, _ => .undecided

/-- The fields of eleven bits of arbitration, and the data read behind them (R99, R179). -/
def readFields (field : List Bool) (data : List Byte) : Verdict :=
  .intact (BitVec.ofNat 2 (bitsValue (field.take 2))) (Fin.ofNat 16 (bitsValue ((field.drop 2).take 4)))
    (BitVec.ofNat 5 (bitsValue (field.drop 6))) data

/-- The receiver's judgement of the bits after a start bit: separators dominant, the check register equal to the two bytes received, seven end bits recessive (R99, R100). -/
def judgeBits (bits : List Bool) : Verdict :=
  if bits.length < 11 then .undecided
  else
    match readBytes 1 (bits.drop 11) with
    | .broken => .damaged
    | .got [n] afterLength =>
      match readBytes (n.toNat + 2) afterLength with
      | .broken => .damaged
      | .got bytes afterCheck =>
        let data := bytes.take n.toNat
        if bytes.drop n.toNat = bytes16 (checkOver (bits.take 11) (n :: data)) then
          readEnd (readFields (bits.take 11) data) 7 afterCheck
        else if afterCheck.isEmpty then .damaged else .undecided
      | .unread => .undecided
    | _ => .undecided

end Sys2Proof.Machine
end

