-- ==== Sys2Proof/WellFormed.lean ====
section
/-! DEFINITION. Which commands the line, the level port, the pins and the timers can give: the checks on a command's operands alone. -/

namespace Sys2Proof

/-- The bits after an arbitration field make an intact frame (R99, R100); `fits` says what its fields must do. -/
def isIntactTail (field : BitVec 11) (fits : BitVec 2 → BitVec 5 → Nat → Bool) (tail : List Bool) : Bool :=
  match Machine.judgeBits (Machine.fieldBits field ++ tail) with
  | .intact priority _ kind data => fits priority kind data.length
  | _ => false

/-- The bits make an intact frame of a kind, its length allowed (R110). -/
def isFrameOf (k : Kind) (sender : Station) (tail : List Bool) : Bool :=
  isIntactTail (Machine.kindField k sender) Machine.frameFits tail

/-- The numbers a part can have as own station, 0..7 (R170). -/
def ownNumbers : List Station := [0, 1, 2, 3, 4, 5, 6, 7]

/-- The bits make an intact frame whose sender is a part's own number: the check sequence covers the sender (R100, R112). -/
def isClashTail (priority : BitVec 2) (kind : BitVec 5) (tail : List Bool) : Bool :=
  ownNumbers.any (fun own => isIntactTail (Machine.arbitrationField priority own kind) (fun _ _ _ => true) tail)

/-- A shared index, 0..2047. -/
def indexOk (n : Nat) : Bool := decide (n < Config.chartLines)

/-- A key a slot can hold: opener 0..7 (chapter 5). -/
def slotKeyOk (k : Key) : Bool := decide (k.opener.toNat < 8)

/-- The operands of a command are ones the part can meet. -/
def Instr.wf : Instr → Bool
  | .reset .low => true
  | .reset (.released _ memory) => decide (memory.bytes.length ≤ 24)
  | .endOfBoot steps => decide (steps ≤ 27)
  | .levelWord _ _ => true
  | .wordDiscard _ => true
  | .gainDownEnd _ => true
  | .phasingTimeout _ => true
  | .lineIdle _ => true
  | .frameStart _ => true
  | .arbitrationLost _ bit => decide (bit ≤ 10)
  | .arbitrationWon _ => true
  | .sendCompletion _ .sent => true
  | .sendCompletion _ (.bitError bit) => decide (bit < 2270)
  | .sendCompletion _ (.damagedEcho endBits) => decide (1 ≤ endBits.length) && decide (endBits.length ≤ 7)
  | .silentEnd _ => true
  | .frameDamaged _ bits => Machine.judgeBits bits == .damaged
  | .frameMalformed _ p sender k tail =>
      isIntactTail (Machine.arbitrationField p sender k) (fun p k n => !(Machine.frameFits p k n)) tail
  | .clash _ p k tail => isClashTail p k tail
  | .openHeard _ sender tail => isFrameOf .openK sender tail
  | .closeHeard _ sender tail => isFrameOf .closeK sender tail
  | .dropHeard _ sender tail => isFrameOf .dropK sender tail
  | .tallyHeard _ sender tail => isFrameOf .tallyK sender tail
  | .wantHeard _ sender tail => isFrameOf .wantK sender tail
  | .claimHeard _ sender tail => isFrameOf .claimK sender tail
  | .lineHeard _ sender tail => isFrameOf .lineK sender tail
  | .restartHeard _ sender tail => isFrameOf .restartK sender tail
  | .askHeard _ sender tail => isFrameOf .askK sender tail
  | .rosterHeard _ sender tail => isFrameOf .rosterK sender tail
  | .infoHeard _ k sender tail => isFrameOf (Machine.infoKind k) sender tail
  | .tallyExpiry _ => true
  | .wantTimerExpiry _ _ => true
  | .sweepDeadline _ _ => true
  | .silenceClose _ _ => true
  | .claimLapse _ k j => slotKeyOk k && indexOk j
  | .heardLapse _ k j _ => slotKeyOk k && indexOk j
  | .reassemblyTimeout _ _ k j => slotKeyOk k && indexOk j
  | .peerAbsent _ _ => true
  | .rosterExpiry _ => true
  | .minuteExpiry _ => true
  | .lineBusy _ => true

end Sys2Proof
end

