-- ==== Sys2Proof/Decode.lean ====
section
/-! DEFINITION. Reading a command from a numbered word.  No row of spec/opcode_table.json gives bits, so no word spells a command; the words the FCA-8 itself decodes (level word, boot record, frames) are read in Machine/Operands.lean and Machine/Frames.lean. -/

namespace Sys2Proof

/-- The command that the table's bits spell: none, since the table gives no row any bits. -/
def decodeTableWord (_nbits _w : Nat) : Option Instr := none

end Sys2Proof
end

