-- ==== Sys2Proof/Machine/State.lean ====
section
/-! DEFINITION. The state of the FCA-8, block by block as the book gives it: LCU, LFR, CST, XEN, SLC and SSV, with station time and the queue of waiting commands; its values after reset; the outcomes of a step. -/

namespace Sys2Proof.Machine

/-! ## The part as a whole -/

/-- Where the part stands between reset and operation (R169). -/
inductive Phase where
  /-- RESETN low or supply not good. -/
  | inReset
  /-- The 20 ms after the release, while the boot memory is read. -/
  | boot
  /-- After the end of boot. -/
  | running
deriving DecidableEq, Repr

/-- The boot memory bus: driven only during boot (R171). -/
inductive BootBus where
  /-- BMC and BMD are released. -/
  | freed
  /-- The part is master of the bus and has the boot read before it; `memory` is what will answer. -/
  | mastering (memory : BootMemory)
deriving DecidableEq, Repr

/-- One step of the boot read (R171). -/
inductive BusStep where
  /-- A device is addressed, for writing or for reading, and acknowledges or does not. -/
  | address (device : BitVec 7) (forWriting acknowledged : Bool)
  /-- A byte is sent to it. -/
  | sent (b : Byte) (acknowledged : Bool)
  /-- A byte is taken from it, and the part acknowledges or does not. -/
  | taken (b : Byte) (acknowledged : Bool)
deriving DecidableEq, Repr

/-! ## LCU (chapter 1) -/

/-- The crossing detector (R3). -/
inductive Crossing where
  | unset | dark | bright
deriving DecidableEq, Repr

/-- The last verdict of the tuning comparison (R9). -/
inductive TuningStatus where
  | inBand | high | low
deriving DecidableEq, Repr

/-- The accumulators of the window in progress (R4). -/
structure WindowAcc where
  usable : Nat
  strengthSum : Nat
  overload : Nat
  crossings : Nat
  brightCount : Nat
  brightSum : Nat
deriving DecidableEq, Repr

/-- Run, run first word and confirmed flag of one pattern (R14). -/
structure PatternRun where
  run : Nat
  first : Option Position
  confirmed : Bool
deriving DecidableEq, Repr

/-- The LCU's state (chapter 1; values after reset R16). -/
structure Lcu where
  wordPos : Position
  windowCount : Nat
  acc : WindowAcc
  crossing : Crossing
  offset : Int
  status : TuningStatus
  tuningBlank : Nat
  jumpRun : Nat
  clipBlank : Nat
  start : PatternRun
  stop : PatternRun
  /-- The gain-down timer: the station time (ms) at which the pulse in progress ends. -/
  gainDownEnd : Option Nat
  /-- The GDN pin: high or not. -/
  gdn : Bool
deriving DecidableEq, Repr

/-! ## LFR (chapters 2 and 3) -/

/-- One hand-off from the LCU, as the word history keeps it (R2, R17). -/
structure HeardWord where
  pos : Position
  level : Nat
  strength : Nat
  valid : Bool
  overload : Bool
deriving DecidableEq, Repr

inductive FramerState where
  | idle | phasing | image
deriving DecidableEq, Repr

/-- The line rates 60, 120 and 240 lpm, rate codes 0, 1, 2. -/
inductive Rate where
  | r60 | r120 | r240
deriving DecidableEq, Repr

/-- An accepted phasing pulse and its beat (chapter 2.3). -/
structure Pulse where
  pos : Position
  beat : Nat
deriving DecidableEq, Repr

/-- A run of words by its first word and length: the dark run in progress (R18), a pulse candidate, or IDLE's first pulse (R20). -/
structure WordRun where
  first : Position
  length : Nat
deriving DecidableEq, Repr

/-- The line being cut, with its accumulators (R29, R30): per pixel the sum and count of the usable words' levels. -/
structure LineInProgress where
  index : Nat
  start : Position
  next : Position
  pixels : List (Nat × Nat)
  usable : Nat
  strength : Nat
deriving DecidableEq, Repr

/-- Where a copy came from (R65). -/
inductive Origin where
  | localCopy | peerCopy
deriving DecidableEq, Repr

/-- The 1,200 stored pixels of a copy, 0 (black) to 15 (white); the content of one page. -/
abbrev Pixels := List (BitVec 4)

/-- One version of one line. -/
structure Copy where
  pixels : Pixels
  q : Nat
  u : Nat
  source : Receiver
  origin : Origin
deriving DecidableEq, Repr

/-- A closed line of the tail queue (R31): local index, first word, last word, copy. -/
structure TailLine where
  index : Nat
  start : Position
  last : Position
  copy : Copy
deriving DecidableEq, Repr

/-- The LFR's state (chapter 2; values after reset R40). -/
structure Lfr where
  state : FramerState
  startSeen : Bool
  /-- The last 9,600 words handed over, oldest first. -/
  history : List HeardWord
  darkRun : Option WordRun
  firstPulse : Option WordRun
  rate : Option Rate
  /-- Accepted pulses, oldest first. -/
  pulses : List Pulse
  /-- P. -/
  period : Option Nat
  missCount : Nat
  /-- The phasing timer: the station time (ms) it was last started at, none while stopped. -/
  phasingSince : Option Nat
  /-- Z. -/
  zero : Option FinePosition
  /-- T_local. -/
  tLocal : Option Nat
  line : Option LineInProgress
  /-- Closed lines, oldest first. -/
  tail : List TailLine
  fadedCount : Nat
  bound : Option SlotNo
  /-- The highest local index committed in this image. -/
  highest : Option Nat
deriving DecidableEq, Repr

/-! ## CST (chapters 4 and 5) -/

inductive ChartState where
  | live | sweep | held
deriving DecidableEq, Repr

inductive CloseReason where
  | stop | fade | limit | start | silence
deriving DecidableEq, Repr

/-- A held line map entry (R65). -/
structure LineEntry where
  page : Nat
  q : Nat
  code : Nat
  source : Receiver
  origin : Origin
  u : Nat
deriving DecidableEq, Repr

/-- The record and line map of a slot that is not FREE (chapter 4.2, 4.3). A FREE slot holds none. -/
structure Chart where
  state : ChartState
  key : Key
  otherKey : Option Key
  tag : Nat
  rate : Rate
  bound : Bool
  offset : Option Int
  newest : Option Nat
  localTransition : Option Nat
  /-- Own clock; it can lie before station time 0. -/
  peerTransition : Option Int
  announced : Option Nat
  highestHeld : Option Nat
  heldCount : Nat
  poorCount : Nat
  used : Bool
  lastReference : Nat
  /-- The want timer: the station time (ms) of its next expiry, none once stopped. -/
  wantDue : Option Nat
  sweepDeadline : Option Nat
  closeReason : Option CloseReason
  opened : Nat
  /-- The dirty flags: bit b for block b. -/
  dirty : BitVec 64
  /-- The held entries, by rising shared index; an index not listed is absent. -/
  lineMap : List (Nat × LineEntry)
deriving DecidableEq, Repr

/-- The CST's state (chapter 4; values after reset R79). -/
structure Cst where
  /-- The page pool: page number and pixels, rising; a page not listed reads as the blank page. -/
  pages : List (Nat × Pixels)
  /-- Free page numbers, oldest first. -/
  free : List Nat
  poolReported : Bool
  /-- The four slots; none is FREE. -/
  slots : Vector (Option Chart) 4
  evictPtr : SlotNo
  ownSequence : Byte
deriving DecidableEq, Repr

/-! ## XEN (chapters 5, 7 and 8) -/

/-- Whether the slot's own OPEN still has to reach the line (R84); a FREE slot has none. -/
inductive OpenRequest where
  | nothing | queued | owed
deriving DecidableEq, Repr

/-- One column of a peer view: shared index and nonzero code, rising; an index not listed has code 0 (R117). -/
abbrev Column := List (Nat × Nat)

/-- A slot's peer view: a column per receiver station; own station's column is never written (R117). -/
abbrev PeerView := Vector Column 8

inductive ClaimState where
  | pending | active | heard
deriving DecidableEq, Repr

/-- A line entry of the claim table (R137). -/
structure Claim where
  key : Key
  index : Nat
  claimant : Receiver
  code : Option Nat
  state : ClaimState
  expiry : Option Nat
deriving DecidableEq, Repr

/-- A line of the build list (R142). -/
structure BuildLine where
  key : Key
  index : Nat
deriving DecidableEq, Repr

/-- A reception in progress (R151). -/
structure Assembly where
  sender : Receiver
  key : Key
  index : Nat
  count : Nat
  next : Nat
  q : Nat
  u : Nat
  bytes : List Byte
  start : Nat
deriving DecidableEq, Repr

/-- The XEN's state (chapters 7 and 8, and the open requests of chapter 5). -/
structure Xen where
  views : Vector PeerView 4
  openReq : Vector OpenRequest 4
  /-- The tally timer: the station time (ms) of the next expiry. -/
  tallyDue : Nat
  tallyPtr : SlotNo
  claims : List Claim
  build : List BuildLine
  assemblies : List Assembly
deriving DecidableEq, Repr

/-! ## SLC (chapters 6 and 11) -/

/-- The descriptor of a chart in a DESCRIBE (R163, R181). -/
structure Descriptor where
  key : Key
  otherKey : Key
  tag : Byte
  rate : Byte
  state : Byte
  length : BitVec 16
  heldCount : BitVec 16
  poorCount : BitVec 16
  holders : Byte
  age : Byte
deriving DecidableEq, Repr

/-- The data of a frame, field by field, in the layouts of R180 and R181. -/
inductive Payload where
  | openF (key : Key) (tag rate : Byte) (delay : BitVec 16)
  | closeF (key : Key) (length : BitVec 16) (reason : Byte)
  | restartF (mask : BitVec 16)
  | dropF (key : Key)
  | tallyF (key : Key) (base : BitVec 16) (codes : List (BitVec 4))
  | wantF (key : Key) (base : BitVec 16) (mask : BitVec 32) (have' : List (BitVec 4)) (stations : BitVec 16)
  | claimF (key : Key) (base : BitVec 16) (mask : BitVec 32) (codes : List (BitVec 4))
  | askF (target k : Byte)
  | describeNullF (requester k n : Byte)
  | describeF (requester k : Byte) (chart : Descriptor)
  | rosterF (kind tag freeSlots freePages status version offset tuning : Byte)
  | reportF (counters : List (BitVec 16))
  | noteF (noteClass tag : Byte) (key : Key) (detail : BitVec 16)
  | lineF (key : Key) (index : BitVec 16) (count fragment : BitVec 4) (q : Byte) (u : BitVec 16) (runs : List Byte)
deriving DecidableEq, Repr

inductive LineState where
  | unsynced | busy | idle
deriving DecidableEq, Repr

inductive TxRole where
  | none | contending | sending
deriving DecidableEq, Repr

/-- The block that queued a frame (R103). -/
inductive Block where
  | cst | xen | ssv
deriving DecidableEq, Repr

/-- What an owner asks of a queued entry (R105). -/
inductive Request where
  | remove
  | replaceKey (old new : Key)
  | withdrawLines (mask : BitVec 32)
deriving DecidableEq, Repr

/-- An entry of the outbound queue (R103).  Its age is its place in the queue. -/
structure Entry where
  payload : Payload
  owner : Block
  /-- The slot of an OPEN. -/
  slot : Option SlotNo
  /-- The local transition time an OPEN carries for its delay (R87, R114). -/
  transition : Nat
  /-- Requests that reached the entry while it was the frame on the wire (R105). -/
  waiting : List Request
  /-- Whether this entry is the frame on the wire. -/
  onWire : Bool
deriving DecidableEq, Repr

/-- The SLC's state (chapter 6; values after reset R115). -/
structure Slc where
  lineState : LineState
  recessiveRun : Nat
  /-- The receive frame: the bits read since its start bit, none when no frame is being read. -/
  rx : Option (List Bool)
  role : TxRole
  /-- Oldest first. -/
  queue : List Entry
  damageRun : Nat
  /-- The end (ms) of the silent time, none when not silent. -/
  silent : Option Nat
  /-- The SLE pin: high or not. -/
  sle : Bool
  /-- The SLT pin: recessive or not (dominant). -/
  sltRecessive : Bool
deriving DecidableEq, Repr

/-! ## SSV (chapters 9 and 10) -/

inductive StationKind where
  | receiver | viewer
deriving DecidableEq, Repr

inductive ConfigStatus where
  | asRead | clamped | defaults
deriving DecidableEq, Repr

inductive SweepEnd where
  | stop | keep
deriving DecidableEq, Repr

inductive FadeMode where
  | none | report | close
deriving DecidableEq, Repr

inductive ClipMode where
  | none | report | act
deriving DecidableEq, Repr

/-- The boot fields (R173). -/
structure BootFields where
  tag : Nat
  startRate : Nat
  stopRate : Nat
  margin : Nat
  poorFloor : Nat
  wantLevel : Nat
  sweepSeconds : Nat
  sweepEnd : SweepEnd
  fadeThreshold : Nat
  fadeSeconds : Nat
  fadeMode : FadeMode
  clipMode : ClipMode
  tuningOn : Bool
  noteMask : BitVec 16
deriving DecidableEq, Repr

/-- The defaults of R173. -/
def BootFields.defaults : BootFields where
  tag := 1
  startRate := 300
  stopRate := 450
  margin := 6
  poorFloor := 20
  wantLevel := 8
  sweepSeconds := 90
  sweepEnd := .stop
  fadeThreshold := 6
  fadeSeconds := 60
  fadeMode := .close
  clipMode := .act
  tuningOn := true
  noteMask := 0xFFFF

/-- The entry of a present station (chapter 9): last heard (ms), and kind and tag once a ROSTER has been heard. -/
structure Peer where
  lastHeard : Nat
  roster : Option (StationKind × Nat)
deriving DecidableEq, Repr

/-- The SSV's state (chapters 9 and 10; values after reset R167, R178). -/
structure Ssv where
  own : Receiver
  boot : BootFields
  status : ConfigStatus
  version : Byte
  counters : Vector Nat 16
  /-- The station time (ms) of the next REPORT. -/
  minuteDue : Nat
  /-- The station time (ms) of the next ROSTER. -/
  rosterDue : Nat
  /-- The peer table; none is absent. -/
  peers : Vector (Option Peer) 16
  /-- The boot memory pins BMC and BMD. -/
  bootBus : BootBus
  /-- The steps of this boot's read, in order; none before it has run. -/
  bootSteps : List BusStep
deriving DecidableEq, Repr

/-! ## The whole state -/

/-- The FCA-8. -/
structure State where
  phase : Phase
  /-- Station time in µs; the millisecond count of the book is its thousandth part. -/
  clock : Nat
  lcu : Lcu
  lfr : Lfr
  cst : Cst
  xen : Xen
  slc : Slc
  ssv : Ssv
  /-- The commands that wait, first in, first out. -/
  pending : List Instr
deriving DecidableEq, Repr

/-- The reasons a step can stop the machine.  The book describes no stop, so there is none: nothing raises a fault.  Safe. -/
inductive Fault where
deriving DecidableEq, Repr

/-- The reasons a step can refuse a command. -/
inductive Refusal where
  /-- The command has no meaning yet.  Raised by exec's arms only; no arm raises it.  Safe: nothing is claimed of such a command. -/
  | notModelled (mnemonic : String)
deriving DecidableEq, Repr

/-! ## Values after reset -/

def WindowAcc.zero : WindowAcc := ⟨0, 0, 0, 0, 0, 0⟩

def PatternRun.zero : PatternRun := ⟨0, none, false⟩

/-- R16. -/
def Lcu.reset : Lcu where
  wordPos := 0
  windowCount := 0
  acc := .zero
  crossing := .unset
  offset := 0
  status := .inBand
  tuningBlank := 0
  jumpRun := 0
  clipBlank := 0
  start := .zero
  stop := .zero
  gainDownEnd := none
  gdn := false

/-- R40. -/
def Lfr.reset : Lfr where
  state := .idle
  startSeen := false
  history := []
  darkRun := none
  firstPulse := none
  rate := none
  pulses := []
  period := none
  missCount := 0
  phasingSince := none
  zero := none
  tLocal := none
  line := none
  tail := []
  fadedCount := 0
  bound := none
  highest := none

/-- R79, with the page pool at power-on (notes/assumptions/6.md). -/
def Cst.reset : Cst where
  pages := []
  free := List.range' 0 Config.poolPages
  poolReported := false
  slots := Vector.replicate 4 none
  evictPtr := 0
  ownSequence := 0

/-- A view that knows of no copy (R117). -/
def PeerView.empty : PeerView := Vector.replicate 8 []

/-- R97, R132, R155. -/
def Xen.reset : Xen where
  views := Vector.replicate 4 .empty
  openReq := Vector.replicate 4 .nothing
  tallyDue := Config.tallyMs
  tallyPtr := 0
  claims := []
  build := []
  assemblies := []

/-- R115. -/
def Slc.reset : Slc where
  lineState := .unsynced
  recessiveRun := 0
  rx := none
  role := .none
  queue := []
  damageRun := 0
  silent := none
  sle := false
  sltRecessive := true

/-- R167, R178; own station, boot fields, status and version before the next boot are named in notes/assumptions/5.md. -/
def Ssv.reset : Ssv where
  own := 0
  boot := .defaults
  status := .defaults
  version := 0
  counters := Vector.replicate 16 0
  minuteDue := Config.minuteMs
  rosterDue := Config.rosterStaggerMs
  peers := Vector.replicate 16 none
  bootBus := .freed
  bootSteps := []

/-- The machine right after reset: RESETN still low, every block at its values after reset (R169). -/
def State.reset : State where
  phase := .inReset
  clock := 0
  lcu := .reset
  lfr := .reset
  cst := .reset
  xen := .reset
  slc := .reset
  ssv := .reset
  pending := []

end Sys2Proof.Machine
end

