-- ==== Sys2Proof/Machine/Operands.lean ====
section
/-! DEFINITION. The operand forms the part reads: word positions, the level word, the boot record, numbers in bytes, keys, rates, codes, and the roundings of the book. -/

namespace Sys2Proof.Machine

/-! ## Word positions (R1) -/

/-- How many words position `a` lies after position `b`, modulo 2^40 (R1). -/
def wordsAfter (a b : Position) : Nat := (a - b).toNat

/-- Whether position `a` lies before position `b`: `b` less `a` lies in 1 .. 2^39 − 1 (R1). -/
def isBefore (a b : Position) : Bool :=
  decide (1 ≤ wordsAfter b a) && decide (wordsAfter b a ≤ 2 ^ 39 - 1)

/-- Whether `p` lies within `centre` ± `tolerance` (R22, R24). -/
def isWithin (p centre : Position) (tolerance : Nat) : Bool :=
  decide (wordsAfter (p + BitVec.ofNat 40 tolerance) centre ≤ 2 * tolerance)

/-- A position in sixteenths of a word. -/
def finePosition (p : Position) : FinePosition := p.zeroExtend 44 <<< 4

/-- floor(z / 16): the word a fine position lies in. -/
def wordOf (z : FinePosition) : Position := (z >>> 4).truncate 40

/-- The start of line `n`: floor((Z + n × P) / 16) (R29). -/
def lineStart (z : FinePosition) (p n : Nat) : Position := wordOf (z + BitVec.ofNat 44 (n * p))

/-! ## The level word (R182) -/

/-- The four fields of a level word (R182). -/
structure LevelWord where
  level : Nat
  strength : Nat
  overload : Bool
  valid : Bool
deriving DecidableEq, Repr

/-- The level word read as one 16-bit number: level in bits 15..8, strength in 7..2, overload in 1, valid in 0 (R182). -/
def readLevelWord (bits : BitVec 16) : LevelWord where
  level := (bits.extractLsb' 8 8).toNat
  strength := (bits.extractLsb' 2 6).toNat
  overload := bits.getLsbD 1
  valid := bits.getLsbD 0

/-- The level less the tuning offset, clamped to 0..255 (R2). -/
def correctLevel (level : Nat) (offset : Int) : Nat :=
  (max 0 (min 255 ((level : Int) - offset))).toNat

/-- A word is usable when valid is yes and overload is no (R2). -/
def HeardWord.usable (w : HeardWord) : Bool := w.valid && !w.overload

/-! ## Rates -/

/-- Nw, the nominal words per line. -/
def rateWords : Rate → Nat
  | .r60 => 4800
  | .r120 => 2400
  | .r240 => 1200

/-- Lms, the line period in ms. -/
def rateMs : Rate → Nat
  | .r60 => 1000
  | .r120 => 500
  | .r240 => 250

/-- The rate code 0..2 (R179). -/
def rateCode : Rate → Nat
  | .r60 => 0
  | .r120 => 1
  | .r240 => 2

/-- The rate of a rate code; a code above 2 names none (R88). -/
def rateOfCode (code : Nat) : Option Rate :=
  match code with
  | 0 => some .r60
  | 1 => some .r120
  | 2 => some .r240
  | _ => none

/-! ## Roundings -/

/-- a / b rounded half up. -/
def roundHalfUp (a b : Nat) : Nat := (2 * a + b) / (2 * b)

/-- a / b rounded half away from zero (R82). -/
def roundHalfAway (a : Int) (b : Nat) : Int :=
  if 0 ≤ a then (roundHalfUp a.natAbs b : Int) else -(roundHalfUp a.natAbs b : Int)

/-- The distance `transition − peer` in lines, rounded half away from zero, when it lies in −8..+8 (R82, R89, R90). -/
def offsetWithin8 (transition peer : Int) (rate : Rate) : Option Int :=
  let o := roundHalfAway (transition - peer) (rateMs rate)
  if o.natAbs ≤ 8 then some o else none

/-- Clamp to lo..hi. -/
def clampTo (lo hi n : Nat) : Nat := max lo (min hi n)

/-! ## Bytes, keys, masks (R179) -/

/-- A two-byte field, most significant byte first (R179). -/
def be16 (hi lo : Byte) : BitVec 16 := hi ++ lo

/-- A four-byte field, most significant byte first (R179). -/
def be32 (b3 b2 b1 b0 : Byte) : BitVec 32 := (b3 ++ b2) ++ (b1 ++ b0)

/-- The four bytes of a field, most significant first (R179). -/
def bytes32 (w : BitVec 32) : List Byte :=
  [w.extractLsb' 24 8, w.extractLsb' 16 8, w.extractLsb' 8 8, w.extractLsb' 0 8]

/-- The no-key marker 0xFF 0xFF (R179). -/
def noKey : Key := ⟨0xFF, 0xFF⟩

/-- An optional key as a key field (R179). -/
def keyField (k : Option Key) : Key := k.getD noKey

/-- The number opener × 256 + sequence (R90). -/
def keyNumber (k : Key) : BitVec 16 := be16 k.opener k.sequence

/-- The receiver a station number names, 0..7; a viewer is none. -/
def receiverOf (s : Station) : Option Receiver :=
  if h : s.val < 8 then some ⟨s.val, h⟩ else none

/-- A receiver as a station number. -/
def stationOf (r : Receiver) : Station := ⟨r.val, by omega⟩

/-- The receivers 0..7. -/
def allReceivers : List Receiver := [0, 1, 2, 3, 4, 5, 6, 7]

/-- The station numbers 0..15. -/
def allStations : List Station := [0, 1, 2, 3, 4, 5, 6, 7, 8, 9, 10, 11, 12, 13, 14, 15]

/-- The slots 0..3. -/
def allSlots : List SlotNo := [0, 1, 2, 3]

/-- The receivers other than own station: the seven columns of a peer view (R117). -/
def otherReceivers (own : Receiver) : List Receiver := allReceivers.filter (· != own)

/-- The address mask naming these receivers: the bit of weight 2^n stands for station n (R179). -/
def addressMask (rs : List Receiver) : BitVec 16 :=
  rs.foldl (fun m r => m ||| BitVec.twoPow 16 r.val) 0

/-- The line mask setting these lines of a block, given by their place 0..31 (R179). -/
def lineMask (places : List Nat) : BitVec 32 :=
  places.foldl (fun m i => m ||| BitVec.twoPow 32 i) 0

/-- The places 0..31 a line mask sets, ascending. -/
def maskPlaces (mask : BitVec 32) : List Nat := (List.range 32).filter (fun i => mask.getLsbD i)

/-- Whether a base is a multiple of 32 in 0..2016 (R118, R130, R138). -/
def baseOk (base : BitVec 16) : Bool := base.toNat % 32 == 0 && decide (base.toNat ≤ 2016)

/-! ## Codes (R48) -/

/-- The tally code of a held copy of quality q: 1 + floor(14 × q / 100) (R48). -/
def qualityCode (q : Nat) : Nat := 1 + 14 * q / 100

/-! ## Enumerations in frames (R179) -/

def reasonCode : CloseReason → Nat
  | .stop => 1
  | .fade => 2
  | .limit => 3
  | .start => 4
  | .silence => 5

/-- The reason a code 1..5 names (R94). -/
def reasonOfCode (code : Nat) : Option CloseReason :=
  match code with
  | 1 => some .stop
  | 2 => some .fade
  | 3 => some .limit
  | 4 => some .start
  | 5 => some .silence
  | _ => none

def chartStateCode : ChartState → Nat
  | .live => 1
  | .sweep => 2
  | .held => 3

def statusCode : ConfigStatus → Nat
  | .asRead => 0
  | .clamped => 1
  | .defaults => 2

def tuningCode : TuningStatus → Nat
  | .inBand => 0
  | .high => 1
  | .low => 2

/-- A station kind byte: 1 RECEIVER, 2 VIEWER, others neither (R179, R181). -/
def kindOfByte (b : Byte) : Option StationKind :=
  if b = 1 then some .receiver else if b = 2 then some .viewer else none

/-! ## The boot record (R172, R173, R182) -/

/-- A numeric field: the value taken, and whether it was clamped (R173). -/
def bootNumber (lo hi n : Nat) : Nat × Bool := (clampTo lo hi n, clampTo lo hi n != n)

/-- An enumerated field: the value taken, and whether it defaulted (R173). -/
def bootChoice {α : Type} (table : List α) (dflt : α) (b : Byte) : α × Bool :=
  match table[b.toNat]? with
  | some a => (a, false)
  | none => (dflt, true)

/-- The pair rule: rates that differ by less than 100 both take their defaults (R173). -/
def pairRule (start stop : Nat) : (Nat × Nat) × Bool :=
  if (max start stop) - (min start stop) < 100 then ((300, 450), true) else ((start, stop), false)

/-- The fields of a record with version 0xA3, and whether any was clamped or defaulted or the pair rule applied (R173, R182). -/
def bootFields (b : List Byte) : BootFields × Bool :=
  let at' (i : Nat) : Byte := b.getD i 0
  let num (i : Nat) : Nat := (at' i).toNat
  let num2 (i : Nat) : Nat := (be16 (at' i) (at' (i + 1))).toNat
  let tag := bootNumber 1 15 (num 1)
  let start := bootNumber 100 800 (num2 2)
  let stop := bootNumber 100 800 (num2 4)
  let margin := bootNumber 1 20 (num 6)
  let floor := bootNumber 0 100 (num 7)
  let want := bootNumber 2 15 (num 8)
  let sweepEnd := bootChoice [SweepEnd.stop, .keep] .stop (at' 10)
  let threshold := bootNumber 0 63 (num 11)
  let fadeSeconds := bootNumber 10 255 (num 12)
  let fadeMode := bootChoice [FadeMode.none, .report, .close] .close (at' 13)
  let clipMode := bootChoice [ClipMode.none, .report, .act] .act (at' 14)
  let tuning := bootChoice [false, true] true (at' 15)
  let rates := pairRule start.1 stop.1
  ({ tag := tag.1, startRate := rates.1.1, stopRate := rates.1.2, margin := margin.1, poorFloor := floor.1,
     wantLevel := want.1, sweepSeconds := num 9, sweepEnd := sweepEnd.1, fadeThreshold := threshold.1,
     fadeSeconds := fadeSeconds.1, fadeMode := fadeMode.1, clipMode := clipMode.1, tuningOn := tuning.1,
     noteMask := be16 (at' 16) (at' 17) },
   tag.2 || start.2 || stop.2 || margin.2 || floor.2 || want.2 || sweepEnd.2 || threshold.2 || fadeSeconds.2 ||
     fadeMode.2 || clipMode.2 || tuning.2 || rates.2)

/-- What the outcome of the boot read gives, 24 bytes or no answer: fields, configuration status and record version (R172). -/
def judgeBootRecord (read : Option (List Byte)) : BootFields × ConfigStatus × Byte :=
  match read with
  | none => (.defaults, .defaults, 0)
  | some bytes =>
    let version := bytes.getD 0 0
    if version ≠ 0xA3 then (.defaults, .defaults, version)
    else
      let f := bootFields bytes
      (f.1, if f.2 then .clamped else .asRead, version)

/-! ## The boot memory read (R171) -/

/-- The step of the boot read that follows those taken: address 0x50 for writing, offset byte 0, address 0x50 for reading, then the 24 bytes in order, every one acknowledged but the last; none while the device gives no further byte (R171). -/
def nextBusStep (m : BootMemory) (done : Nat) : Option BusStep :=
  match done with
  | 0 => some (.address 0x50 true m.ackWrite)
  | 1 => some (.sent 0 m.ackOffset)
  | 2 => some (.address 0x50 false m.ackRead)
  | n + 3 => (m.bytes[n]?).map (fun b => .taken b (n != 23))

/-- The device has not acknowledged this step (R171). -/
def BusStep.refused : BusStep → Bool
  | .address _ _ acknowledged => !acknowledged
  | .sent _ acknowledged => !acknowledged
  | .taken _ _ => false

/-- The bytes a boot read took. -/
def takenBytes (steps : List BusStep) : List Byte :=
  steps.filterMap (fun x => match x with | .taken b _ => some b | _ => none)

/-- The boot read is over: its 24th byte taken, or a step not acknowledged (R171). -/
def readOver (steps : List BusStep) : Bool := steps.any BusStep.refused || decide ((takenBytes steps).length = 24)

/-- The outcome of a boot read: the 24 bytes, or no answer, and then those read so far are not used (R171). -/
def bootOutcome (steps : List BusStep) : Option (List Byte) :=
  if (takenBytes steps).length = 24 then some (takenBytes steps) else none

end Sys2Proof.Machine
end

