-- ==== Sys2Proof/Machine/Flags.lean ====
section
/-! DEFINITION. The flags of the part: dirty flags by block, note mask flags, pattern and fade verdicts on a window's statistics. -/

namespace Sys2Proof.Machine

/-! ## Dirty flags (R74) -/

/-- The block of 32 lines a shared index lies in. -/
def blockOf (index : Nat) : Nat := index / 32

def dirtyFlag (flags : BitVec 64) (block : Nat) : Bool := flags.getLsbD block

def setDirty (flags : BitVec 64) (block : Nat) : BitVec 64 := flags ||| BitVec.twoPow 64 block

def clearDirty (flags : BitVec 64) (block : Nat) : BitVec 64 := flags &&& ~~~ (BitVec.twoPow 64 block)

/-- All 64 flags set. -/
def allDirty : BitVec 64 := BitVec.allOnes 64

/-- The dirty blocks, ascending (R123). -/
def dirtyBlocks (flags : BitVec 64) : List Nat := (List.range 64).filter (dirtyFlag flags)

/-! ## Window verdicts (R4, R6, R11, R13) -/

/-- The mean strength of a window: floor(strength sum / usable count), or 0 (R4). -/
def WindowAcc.meanStrength (a : WindowAcc) : Nat := if a.usable = 0 then 0 else a.strengthSum / a.usable

/-- The bright mean of a window: floor(bright sum / bright count), or 0 (R4). -/
def WindowAcc.brightMean (a : WindowAcc) : Nat := if a.brightCount = 0 then 0 else a.brightSum / a.brightCount

/-- The fade verdict (R6). -/
def fadeVerdict (threshold : Nat) (a : WindowAcc) : Bool :=
  decide (a.meanStrength < threshold) || decide (a.usable < 600)

/-- A window is eligible for tuning when it is not faded and its bright count is at least 600 (R7). -/
def tuningEligible (threshold : Nat) (a : WindowAcc) : Bool :=
  !fadeVerdict threshold a && decide (600 ≤ a.brightCount)

/-- A window is far when its bright mean lies more than 64 from 240 (R8). -/
def windowFar (wt : Nat) : Bool := decide (64 < ((wt : Int) - 240).natAbs)

/-- A window is clipped when its overload count is at least 24 (R11). -/
def windowClipped (a : WindowAcc) : Bool := decide (24 ≤ a.overload)

/-- A window matches a pattern of this rate: |crossings − E| × 10 ≤ E with E = floor(rate / 2) (R13). -/
def patternMatches (rate crossings : Nat) : Bool :=
  decide (((crossings : Int) - (rate / 2 : Nat)).natAbs * 10 ≤ rate / 2)

/-! ## Note mask (R175) -/

def noteMaskSet (mask : BitVec 16) (noteClass : Nat) : Bool := mask.getLsbD noteClass

end Sys2Proof.Machine
end

