-- ==== Sys2Proof/Machine/Frames.lean ====
section
/-! DEFINITION. Frames: the data layouts of chapter 11 in both directions, and the fate of a frame read from the line. -/

namespace Sys2Proof.Machine

/-! ## Codes and counters in bytes (R179, R181) -/

/-- Codes two per byte, the even line in the high nibble (R179). -/
def packCodes : List (BitVec 4) → List Byte
  | [] => []
  | [a] => [a ++ (0 : BitVec 4)]
  | a :: b :: rest => (a ++ b) :: packCodes rest

/-- The codes in a field of bytes, high nibble first (R179). -/
def unpackCodes : List Byte → List (BitVec 4)
  | [] => []
  | b :: rest => b.extractLsb' 4 4 :: b.extractLsb' 0 4 :: unpackCodes rest

/-- Two-byte fields one after another, most significant byte first (R181). -/
def packWords : List (BitVec 16) → List Byte
  | [] => []
  | w :: rest => bytes16 w ++ packWords rest

def unpackWords : List Byte → List (BitVec 16)
  | hi :: lo :: rest => be16 hi lo :: unpackWords rest
  | _ => []

def keyBytes (k : Key) : List Byte := [k.opener, k.sequence]

/-! ## Data layouts (R180, R181) -/

def Payload.kind : Payload → Kind
  | .openF .. => .openK
  | .closeF .. => .closeK
  | .restartF .. => .restartK
  | .dropF .. => .dropK
  | .tallyF .. => .tallyK
  | .wantF .. => .wantK
  | .claimF .. => .claimK
  | .askF .. => .askK
  | .describeNullF .. => .describeK
  | .describeF .. => .describeK
  | .rosterF .. => .rosterK
  | .reportF .. => .reportK
  | .noteF .. => .noteK
  | .lineF .. => .lineK

/-- The data bytes of a frame (R180, R181). -/
def Payload.bytes : Payload → List Byte
  | .openF k tag rate delay => keyBytes k ++ [tag, rate] ++ bytes16 delay
  | .closeF k length reason => keyBytes k ++ bytes16 length ++ [reason]
  | .restartF mask => bytes16 mask
  | .dropF k => keyBytes k
  | .tallyF k base codes => keyBytes k ++ bytes16 base ++ packCodes codes
  | .wantF k base mask codes stations => keyBytes k ++ bytes16 base ++ bytes32 mask ++ packCodes codes ++ bytes16 stations
  | .claimF k base mask codes => keyBytes k ++ bytes16 base ++ bytes32 mask ++ packCodes codes
  | .askF target k => [target, k]
  | .describeNullF requester k n => [requester, k, n]
  | .describeF requester k d =>
      [requester, k] ++ keyBytes d.key ++ keyBytes d.otherKey ++ [d.tag, d.rate, d.state] ++ bytes16 d.length ++
        bytes16 d.heldCount ++ bytes16 d.poorCount ++ [d.holders, d.age]
  | .rosterF kind tag freeSlots freePages status version offset tuning =>
      [kind, tag, freeSlots, freePages, status, version, offset, tuning]
  | .reportF counters => packWords counters
  | .noteF c tag k detail => [c, tag] ++ keyBytes k ++ bytes16 detail
  | .lineF k index count fragment q u runs =>
      keyBytes k ++ bytes16 index ++ [count ++ fragment, q] ++ bytes16 u ++ runs

/-- The data read by the offsets of its kind's table; none when the length is not one the kind allows (R179, R180, R181). -/
def readData : Kind → List Byte → Option Payload
  | .openK, [k0, k1, tag, rate, d1, d0] => some (.openF ⟨k0, k1⟩ tag rate (be16 d1 d0))
  | .closeK, [k0, k1, l1, l0, reason] => some (.closeF ⟨k0, k1⟩ (be16 l1 l0) reason)
  | .restartK, [m1, m0] => some (.restartF (be16 m1 m0))
  | .dropK, [k0, k1] => some (.dropF ⟨k0, k1⟩)
  | .tallyK, k0 :: k1 :: b1 :: b0 :: codes =>
      if codes.length = 16 then some (.tallyF ⟨k0, k1⟩ (be16 b1 b0) (unpackCodes codes)) else none
  | .wantK, k0 :: k1 :: b1 :: b0 :: m3 :: m2 :: m1 :: m0 :: rest =>
      if rest.length = 18 then
        some (.wantF ⟨k0, k1⟩ (be16 b1 b0) (be32 m3 m2 m1 m0) (unpackCodes (rest.take 16))
          (be16 (rest.getD 16 0) (rest.getD 17 0)))
      else none
  | .claimK, k0 :: k1 :: b1 :: b0 :: m3 :: m2 :: m1 :: m0 :: codes =>
      if codes.length = 16 then some (.claimF ⟨k0, k1⟩ (be16 b1 b0) (be32 m3 m2 m1 m0) (unpackCodes codes)) else none
  | .askK, [target, k] => some (.askF target k)
  | .describeK, [requester, k, n] => some (.describeNullF requester k n)
  | .describeK, [requester, k, k0, k1, a0, a1, tag, rate, state, l1, l0, h1, h0, p1, p0, holders, age] =>
      some (.describeF requester k
        ⟨⟨k0, k1⟩, ⟨a0, a1⟩, tag, rate, state, be16 l1 l0, be16 h1 h0, be16 p1 p0, holders, age⟩)
  | .rosterK, [kind, tag, slots, pages, status, version, offset, tuning] =>
      some (.rosterF kind tag slots pages status version offset tuning)
  | .reportK, data => if data.length = 32 then some (.reportF (unpackWords data)) else none
  | .noteK, [c, tag, k0, k1, d1, d0] => some (.noteF c tag ⟨k0, k1⟩ (be16 d1 d0))
  | .lineK, k0 :: k1 :: i1 :: i0 :: cf :: q :: u1 :: u0 :: runs =>
      if 1 ≤ runs.length ∧ runs.length ≤ 240 then
        some (.lineF ⟨k0, k1⟩ (be16 i1 i0) (cf.extractLsb' 4 4) (cf.extractLsb' 0 4) q (be16 u1 u0) runs)
      else none
  | _, _ => none

/-- The lists in a payload have the lengths of its layout: 32 codes, 16 counters, 1..240 run bytes (R180, R181). -/
def Payload.sized : Payload → Bool
  | .tallyF _ _ codes => codes.length == 32
  | .wantF _ _ _ codes _ => codes.length == 32
  | .claimF _ _ _ codes => codes.length == 32
  | .reportF counters => counters.length == 16
  | .lineF _ _ _ _ _ _ runs => decide (1 ≤ runs.length) && decide (runs.length ≤ 240)
  | _ => true

/-- The key of a frame that names a chart (R80). -/
def Payload.chartKey : Payload → Option Key
  | .openF k .. => some k
  | .closeF k .. => some k
  | .dropF k => some k
  | .tallyF k .. => some k
  | .wantF k .. => some k
  | .claimF k .. => some k
  | .lineF k .. => some k
  | _ => none

def swapKey (old new k : Key) : Key := if k = old then new else k

/-- A payload with a given-up key replaced, as chart key, as a NOTE's key or within a descriptor (R89, R105, R164, R175). -/
def Payload.replaceKey (old new : Key) : Payload → Payload
  | .openF k tag rate delay => .openF (swapKey old new k) tag rate delay
  | .closeF k length reason => .closeF (swapKey old new k) length reason
  | .dropF k => .dropF (swapKey old new k)
  | .tallyF k base codes => .tallyF (swapKey old new k) base codes
  | .wantF k base mask codes stations => .wantF (swapKey old new k) base mask codes stations
  | .claimF k base mask codes => .claimF (swapKey old new k) base mask codes
  | .describeF requester k d =>
      .describeF requester k { d with key := swapKey old new d.key, otherKey := swapKey old new d.otherKey }
  | .noteF c tag k detail => .noteF c tag (swapKey old new k) detail
  | .lineF k index count fragment q u runs => .lineF (swapKey old new k) index count fragment q u runs
  | .restartF mask => .restartF mask
  | .askF target k => .askF target k
  | .describeNullF requester k n => .describeNullF requester k n
  | .rosterF a b c d e f g h => .rosterF a b c d e f g h
  | .reportF counters => .reportF counters

/-- Whether a payload is a LINE fragment. -/
def Payload.isLine : Payload → Bool
  | .lineF .. => true
  | _ => false

/-! ## Frames of the line (R99, R109 to R112) -/

/-- The bits on the wire of a payload sent by an attachment, after the arbitration field. -/
def frameTail (sender : Station) (p : Payload) : List Bool := tailBits (kindField p.kind sender) p.bytes

/-- What becomes of a frame of another attachment that the SLC is done with (R109). -/
inductive Fate where
  /-- It is found damaged (R109). -/
  | damaged
  /-- It is intact and carries own station as its sender (R112). -/
  | clash (priority : BitVec 2) (kind : BitVec 5)
  /-- It is intact, and priority, kind or length do not fit (R110). -/
  | malformed (sender : Station)
  /-- It is well-formed, and dispatched by its kind (R111). -/
  | heard (sender : Station) (p : Payload)
deriving DecidableEq, Repr

/-- The fate of an intact frame: clash, malformed or dispatched, in that order (R109). -/
def intactFate (own : Receiver) (priority : BitVec 2) (sender : Station) (kind : BitVec 5) (data : List Byte) : Fate :=
  if sender = stationOf own then .clash priority kind
  else if frameFits priority kind data.length then
    match (kindOfCode kind).bind (readData · data) with
    | some p => .heard sender p
    | none => .malformed sender
  else .malformed sender

/-- The fate of the frame that the bits read make; none when the SLC is not done with it at the last of them (R99, R100, R109). -/
def fateOf (own : Receiver) (bits : List Bool) : Option Fate :=
  match judgeBits bits with
  | .undecided => none
  | .damaged => some .damaged
  | .intact priority sender kind data => some (intactFate own priority sender kind data)

/-- The frame is dispatched as one of this kind. -/
def Fate.isHeard (k : Kind) : Fate → Bool
  | .heard _ p => p.kind == k
  | _ => false

/-- The frame is a clash. -/
def Fate.isClash : Fate → Bool
  | .clash .. => true
  | _ => false

/-- The frame is malformed. -/
def Fate.isMalformed : Fate → Bool
  | .malformed _ => true
  | _ => false

end Sys2Proof.Machine
end

