-- ==== Sys2Proof/Machine/Ops.lean ====
section
/-! DEFINITION. The shared operations: station time, maps kept as rising lists, the page pool, the minute counters, the outbound queue, NOTEs, and the build of LINE fragments. -/

namespace Sys2Proof.Machine

/-! ## Station time -/

/-- Station time in ms. -/
def State.now (s : State) : Nat := s.clock / 1000

/-- Station time moves on to the time of an event; it runs only after the end of boot and never goes back (R169). -/
def advance (t : Nat) (s : State) : State :=
  if s.phase = .running then { s with clock := max s.clock t } else s

/-- Whether station time runs and has reached a time (R169). -/
def isDue (due : Nat) (s : State) : Bool := s.phase == .running && decide (due ≤ s.now)

/-- Whether a timer runs and its time is reached. -/
def reached (due : Option Nat) (s : State) : Bool :=
  match due with
  | some d => isDue d s
  | none => false

/-! ## Maps kept as rising lists -/

def mapGet {α : Type} : List (Nat × α) → Nat → Option α
  | [], _ => none
  | (k, a) :: rest, i => if k = i then some a else mapGet rest i

/-- The value at a key, the entry put in its place among the rising keys. -/
def mapSet {α : Type} (i : Nat) (a : α) : List (Nat × α) → List (Nat × α)
  | [] => [(i, a)]
  | (k, b) :: rest =>
      if i < k then (i, a) :: (k, b) :: rest
      else if i = k then (i, a) :: rest
      else (k, b) :: mapSet i a rest

def mapErase {α : Type} (i : Nat) : List (Nat × α) → List (Nat × α)
  | [] => []
  | (k, b) :: rest => if i = k then rest else (k, b) :: mapErase i rest

/-- The keys are strictly rising. -/
abbrev rising {α : Type} (m : List (Nat × α)) : Prop := (m.map Prod.fst).Pairwise (· < ·)

/-! ## The page pool (R53) -/

/-- What a page that nothing has written holds (notes/assumptions/6.md). -/
def blankPage : Pixels := List.replicate Config.linePixels 0

/-- The canonical form of the page pool: rising page numbers, no page listed that reads as the blank page. -/
abbrev Memory.wf (m : List (Nat × Pixels)) : Prop := rising m ∧ ∀ c ∈ m, c.2 ≠ blankPage

/-- The pixels of a page. -/
def Memory.read (m : List (Nat × Pixels)) (page : Nat) : Pixels := (mapGet m page).getD blankPage

/-- Writes a page, keeping the canonical form. -/
def Memory.write (m : List (Nat × Pixels)) (page : Nat) (p : Pixels) : List (Nat × Pixels) :=
  if p = blankPage then mapErase page m else mapSet page p m

/-! ## Codes of a column (R117) -/

def codeAt (c : Column) (index : Nat) : Nat := (mapGet c index).getD 0

/-- Writes a code; code 0 is kept by not listing the index. -/
def writeCode (c : Column) (index code : Nat) : Column :=
  if code = 0 then mapErase index c else mapSet index code c

/-- The canonical form of a column: rising indices, only nonzero codes. -/
abbrev columnWf (c : Column) : Prop := rising c ∧ ∀ e ∈ c, e.2 ≠ 0

/-! ## Minute counters (R176) -/

/-- Adds to a minute counter, which stops at 65,535 (R176). -/
def bump (n : Fin 16) (k : Nat) (s : State) : State :=
  { s with ssv := { s.ssv with counters := s.ssv.counters.set n (min Config.counterLimit (s.ssv.counters[n] + k)) } }

/-! ## Slots -/

/-- The chart of a slot, none when the slot is FREE. -/
def recordAt (s : State) (i : SlotNo) : Option Chart := s.cst.slots[i]

/-- Puts a record in a slot. -/
def setChart (i : SlotNo) (c : Option Chart) (s : State) : State :=
  { s with cst := { s.cst with slots := s.cst.slots.set i c } }

/-- Alters the record of a slot that is not FREE. -/
def updateChart (i : SlotNo) (f : Chart → Chart) (s : State) : State :=
  match recordAt s i with
  | none => s
  | some c => setChart i (some (f c)) s

/-- A key reaches a slot as its key or its second key (R55, R80). -/
def Chart.answersTo (c : Chart) (k : Key) : Bool := c.key == k || c.otherKey == some k

/-- The slot a key reaches, if any (R55, R80). -/
def slotOf (s : State) (k : Key) : Option SlotNo :=
  allSlots.find? (fun i => match recordAt s i with | some c => c.answersTo k | none => false)

/-- The own code of a line: 0 when absent (R65). -/
def ownCode (c : Chart) (index : Nat) : Nat :=
  match mapGet c.lineMap index with
  | some e => e.code
  | none => 0

/-- The codes of the 32 lines from a base, as a frame carries them (R123, R129, R136). -/
def blockCodes (c : Chart) (base : Nat) : List (BitVec 4) :=
  (List.range 32).map (fun i => BitVec.ofNat 4 (ownCode c (base + i)))

def setOpenReq (i : SlotNo) (r : OpenRequest) (s : State) : State :=
  { s with xen := { s.xen with openReq := s.xen.openReq.set i r } }

def setView (i : SlotNo) (v : PeerView) (s : State) : State :=
  { s with xen := { s.xen with views := s.xen.views.set i v } }

/-- Writes one code of one station's column of a slot's view. -/
def setPeerCode (i : SlotNo) (r : Receiver) (index code : Nat) (s : State) : State :=
  let v := s.xen.views[i]
  setView i (v.set r (writeCode v[r] index code)) s

/-- Sets every dirty flag of every slot that is not FREE (R79, R121). -/
def setAllDirty (s : State) : State :=
  allSlots.foldl (fun s i => updateChart i (fun c => { c with dirty := allDirty }) s) s

/-- The last-reference time of the slot a key reaches is set (R60, R80). -/
def refreshReference (k : Key) (stamp : Nat) (s : State) : State :=
  match slotOf s k with
  | none => s
  | some i => updateChart i (fun c => { c with lastReference := stamp }) s

/-! ## The outbound queue (R103, R104, R105) -/

def setQueue (q : List Entry) (s : State) : State := { s with slc := { s.slc with queue := q } }

/-- How many entries are LINE fragments. -/
def lineEntries (q : List Entry) : Nat := q.countP (fun e => e.payload.isLine)

/-- A fresh entry. -/
def newEntry (p : Payload) (owner : Block) : Entry := ⟨p, owner, none, 0, [], false⟩

/-- Whether the queue takes one more frame (R104). -/
def queueTakes (q : List Entry) (p : Payload) : Bool :=
  decide (q.length < Config.queueRoom) && (!p.isLine || decide (lineEntries q < Config.lineRoom))

/-- Offers one frame: taken at the queue's end, or refused and counted as an outbound drop (R104). -/
def enqueue (e : Entry) (s : State) : State × Bool :=
  if queueTakes s.slc.queue e.payload then (setQueue (s.slc.queue ++ [e]) s, true) else (bump 13 1 s, false)

/-- Offers the fragments of one line: taken whole or refused whole without a count (R104). -/
def enqueueGroup (es : List Entry) (s : State) : State × Bool :=
  if s.slc.queue.length + es.length ≤ Config.queueRoom ∧ lineEntries s.slc.queue + es.length ≤ Config.lineRoom ∧
      s.slc.silent = none then
    (setQueue (s.slc.queue ++ es) s, true)
  else (s, false)

/-- The place of the entry the queue offers: the oldest of the lowest priority class that holds one (R103). -/
def offeredPlace (q : List Entry) : Option Nat :=
  let inClass (c : BitVec 2) : Option Nat := q.findIdx? (fun e => kindClass e.payload.kind == c)
  (inClass 0).or ((inClass 1).or ((inClass 2).or (inClass 3)))

/-- The frame on the wire (chapter 6). -/
def wireEntry (q : List Entry) : Option Entry := q.find? (·.onWire)

/-- What a request makes of an entry; none when the entry leaves (R105).
A withdrawal clears the lines of a CLAIM's mask and leaves its codes as built (R136, R139, R180), although the table of R105 names mask and codes (DEDUCED, notes/assumptions/33.md). -/
def Entry.apply (r : Request) (e : Entry) : Option Entry :=
  match r with
  | .remove => none
  | .replaceKey old new => some { e with payload := e.payload.replaceKey old new }
  | .withdrawLines m =>
      match e.payload with
      | .claimF k base mask codes =>
          if mask &&& ~~~ m = 0 then none else some { e with payload := .claimF k base (mask &&& ~~~ m) codes }
      | _ => some e

/-- A request reaches an entry: at once, or kept while the entry is the frame on the wire (R105). -/
def Entry.take (r : Request) (e : Entry) : Option Entry :=
  if e.onWire then some { e with waiting := e.waiting ++ [r] } else e.apply r

/-- The requests an entry kept are applied in their order, at its loss (R105). -/
def Entry.applyAll : List Request → Entry → Option Entry
  | [], e => some e
  | r :: rest, e =>
      match e.apply r with
      | none => none
      | some e' => Entry.applyAll rest e'

/-- Makes a request of every entry selected (R105). -/
def requestEntries (sel : Entry → Bool) (r : Request) (q : List Entry) : List Entry :=
  q.filterMap (fun e => if sel e then e.take r else some e)

/-! ## NOTE (R175) -/

/-- Raises a NOTE class: with its mask flag set, a NOTE frame is put to the queue (R175). -/
def raiseNote (noteClass : Nat) (key : Option Key) (detail : BitVec 16) (s : State) : State :=
  if noteMaskSet s.ssv.boot.noteMask noteClass then
    (enqueue (newEntry (.noteF (BitVec.ofNat 8 noteClass) (BitVec.ofNat 8 s.ssv.boot.tag) (keyField key) detail) .ssv) s).1
  else s

/-! ## Encoding and building LINE fragments (R142 to R145) -/

/-- The run byte level × 16 + (run − 1) (R144). -/
def runByte (level : BitVec 4) (run : Nat) : Byte := level ++ BitVec.ofNat 4 (run - 1)

/-- Encodes pixels after a run of `run` pixels of `level` already begun (R144). -/
def encodeFrom (level : BitVec 4) (run : Nat) : Pixels → List Byte
  | [] => [runByte level run]
  | p :: rest =>
      if p = level ∧ run < 16 then encodeFrom level (run + 1) rest
      else runByte level run :: encodeFrom p 1 rest

/-- The run bytes of a line: maximal runs cut greedily into runs of 16 and a remainder (R144). -/
def encodeRuns : Pixels → List Byte
  | [] => []
  | p :: rest => encodeFrom p 1 rest

/-- The pixels of run bytes, laid down from pixel 0 (R153). -/
def decodeRuns : List Byte → Pixels
  | [] => []
  | b :: rest => List.replicate ((b.extractLsb' 0 4).toNat + 1) (b.extractLsb' 4 4) ++ decodeRuns rest

/-- g = ceil(bytes / 240) (R145). -/
def fragmentCount (bytes : Nat) : Nat := (bytes + (Config.fragmentBytes - 1)) / Config.fragmentBytes

/-- The LINE fragments of a held copy (R145). -/
def lineFragments (key : Key) (index : Nat) (e : LineEntry) (pixels : Pixels) : List Payload :=
  let runs := encodeRuns pixels
  let g := fragmentCount runs.length
  (List.range g).map (fun i =>
    .lineF key (BitVec.ofNat 16 index) (BitVec.ofNat 4 g) (BitVec.ofNat 4 i) (BitVec.ofNat 8 e.q) (BitVec.ofNat 16 e.u)
      ((runs.drop (Config.fragmentBytes * i)).take Config.fragmentBytes))

/-- The held copy of a line of the chart a key reaches: its entry and its pixels (R143). -/
def heldCopy (s : State) (key : Key) (index : Nat) : Option (LineEntry × Pixels) :=
  match slotOf s key with
  | none => none
  | some i =>
    match recordAt s i with
    | none => none
    | some c =>
      match mapGet c.lineMap index with
      | none => none
      | some e => some (e, Memory.read s.cst.pages e.page)

def setBuild (b : List BuildLine) (s : State) : State := { s with xen := { s.xen with build := b } }

/-- Builds the lines of a list from its head for as long as the queue takes their groups (R143); a line whose copy is not held, which no build meets (R143), leaves the list (DESIGN CHOICE, notes/assumptions/35.md). -/
def buildLines : List BuildLine → State → State
  | [], s => setBuild [] s
  | l :: rest, s =>
    match heldCopy s l.key l.index with
    | none => buildLines rest s
    | some (e, pixels) =>
      let g := enqueueGroup ((lineFragments l.key l.index e pixels).map (fun p => newEntry p .xen)) s
      if g.2 then buildLines rest g.1 else setBuild (l :: rest) s

/-- The XEN tries to build: when lines join the build list, at a room report, and when the head leaves (R104, R143; DEDUCED, notes/assumptions/18.md). -/
def tryBuild (s : State) : State := buildLines s.xen.build s

/-- The attempts an act gives rise to: when an entry has left the queue since `before`, at its room report (R104), and when the head line has left the build list (R143); otherwise none. -/
def retryBuild (before s : State) : State :=
  if s.slc.queue.length < before.slc.queue.length ∨ s.xen.build.head? ≠ before.xen.build.head? then tryBuild s else s

/-- Requests of the queue's entries, with the room report of R104 when an entry left. -/
def withdrawEntries (sel : Entry → Bool) (r : Request) (s : State) : State :=
  retryBuild s (setQueue (requestEntries sel r s.slc.queue) s)

/-! ## Claim table (R137) -/

def setClaims (c : List Claim) (s : State) : State := { s with xen := { s.xen with claims := c } }

/-- An own entry (PENDING or ACTIVE) for a line of a key. -/
def Claim.isOwn (c : Claim) : Bool := c.state != .heard

/-- Whether any entry, in any state, stands for a line of a key (R126, R135). -/
def claimed (claims : List Claim) (key : Key) (index : Nat) : Bool :=
  claims.any (fun c => c.key == key && c.index == index)

/-- Removes the claim entries selected. -/
def dropClaims (sel : Claim → Bool) (s : State) : State := setClaims (s.xen.claims.filter (fun c => !sel c)) s

/-- Removes a line from the build list, wherever it stands (R142). -/
def dropBuildLine (key : Key) (index : Nat) (s : State) : State :=
  setBuild (s.xen.build.filter (fun l => !(l.key == key && l.index == index))) s

/-- Whether an entry is a fragment of a line (R105). -/
def Entry.isFragmentOf (key : Key) (index : Nat) (e : Entry) : Bool :=
  match e.payload with
  | .lineF k i .. => k == key && i.toNat == index
  | _ => false

def setAssemblies (a : List Assembly) (s : State) : State := { s with xen := { s.xen with assemblies := a } }

end Sys2Proof.Machine
end

