-- ==== Sys2Proof/Machine/Boot.lean ====
section
/-! DEFINITION. The meanings of RESET and END_OF_BOOT (chapter 10). -/

namespace Sys2Proof.Machine

/-- The part enters reset: every block takes its values after reset; page contents are not cleared (R79, R169). -/
def enterReset (s : State) : State :=
  { State.reset with pending := s.pending, cst := { Cst.reset with pages := s.cst.pages } }

/-- The release of RESETN begins boot: the straps are latched, and the part is master of the boot memory's bus (R169, R170, R171). -/
def beginBoot (straps : Receiver) (memory : BootMemory) (s : State) : State :=
  { s with
    phase := .boot
    ssv := { s.ssv with own := straps, bootBus := .mastering memory, bootSteps := [] } }

/-- BMC and BMD are released (R171). -/
def freeBootBus (s : State) : State := { s with ssv := { s.ssv with bootBus := .freed } }

/-- The boot read takes one step, when the device lets it; it does not begin on a BMD found low, and once it is over the bus is released (R171). -/
def bootStep (s : State) : State :=
  match s.ssv.bootBus with
  | .freed => s
  | .mastering m =>
    if m.bmdLow then freeBootBus s
    else
      match nextBusStep m s.ssv.bootSteps.length with
      | none => s
      | some x =>
        let steps := s.ssv.bootSteps ++ [x]
        let s := { s with ssv := { s.ssv with bootSteps := steps } }
        if readOver steps then freeBootBus s else s

/-- The boot read takes so many steps (R171). -/
def takeBootSteps : Nat → State → State
  | 0, s => s
  | n + 1, s => takeBootSteps n (bootStep s)

/-- RESET (R169): the pin low puts the part in reset; a release ends reset and begins boot, and does nothing to a part not in reset. -/
def execReset (pin : ResetPin) (s : State) : Host.Outcome State Fault Refusal :=
  .next (
    match pin with
    | .low => enterReset s
    | .released straps memory => if s.phase = .inReset then beginBoot straps memory s else s)

/-- The end of boot: the boot record's outcome is judged; station time and word position start at 0, the tally, ROSTER and minute timers start, and the SLC reads the line in UNSYNCED (R132, R160, R169, R172, R178). -/
def finishBoot (s : State) : State :=
  let r := judgeBootRecord (bootOutcome s.ssv.bootSteps)
  { s with
    phase := .running
    clock := 0
    lcu := { s.lcu with wordPos := 0 }
    xen := { s.xen with tallyDue := Config.tallyMs }
    slc := { s.slc with lineState := .unsynced, recessiveRun := 0, rx := none }
    ssv := { s.ssv with
      boot := r.1, status := r.2.1, version := r.2.2, minuteDue := Config.minuteMs,
      rosterDue := Config.rosterStaggerMs * (s.ssv.own.val + 1) } }

/-- END_OF_BOOT (R169): only a boot can end. Before the end the read takes the steps still left to it and the bus is released (R171). -/
def execEndOfBoot (steps : Nat) (s : State) : Host.Outcome State Fault Refusal :=
  .next (if s.phase = .boot then finishBoot (freeBootBus (takeBootSteps steps s)) else s)

end Sys2Proof.Machine
end

