-- ==== Sys2Proof/Machine/Quality.lean ====
section
/-! DEFINITION. Line quality (chapter 3) and the forming of a line's pixels (R30). -/

namespace Sys2Proof.Machine

/-- The 8-bit level of each pixel from its sum and count of usable words; none when it is unknown (R30). -/
def pixelLevels (pixels : List (Nat × Nat)) : List (Option Nat) :=
  pixels.map (fun p => if p.2 = 0 then none else some (p.1 / p.2))

/-- The stored pixel: floor(level / 16), or 15 when unknown (R30). -/
def storedPixel : Option Nat → BitVec 4
  | some level => BitVec.ofNat 4 (level / 16)
  | none => 15

/-- U, the unknown pixels of a line (R51). -/
def unknownCount (levels : List (Option Nat)) : Nat := levels.countP Option.isNone

/-- The mean strength m of a line (R42). -/
def lineMean (strength usable : Nat) : Nat := if usable = 0 then 0 else strength / usable

/-- A pixel stands out from both neighbours by more than 96, all three known (R43). -/
def isImpulse : Option Nat → Option Nat → Option Nat → Bool
  | some a, some p, some b => (decide (a + 96 < p) && decide (b + 96 < p)) || (decide (p + 96 < a) && decide (p + 96 < b))
  | _, _, _ => false

/-- The impulse count I (R43). -/
def impulseCount : List (Option Nat) → Nat
  | a :: p :: b :: rest => (if isImpulse a p b then 1 else 0) + impulseCount (p :: b :: rest)
  | _ => 0

/-- The completeness term A (R44). -/
def completenessTerm (usable nline : Nat) : Nat := 100 * usable / nline

/-- The strength term B (R45). -/
def strengthTerm (mean : Nat) : Nat := 100 * min mean 40 / 40

/-- The impulse term C (R46). -/
def impulseTerm (impulses : Nat) : Nat := 100 - min 100 (100 * impulses / 64)

/-- Q from the three terms (R47). -/
def qualityOf (a b c : Nat) : Nat := a * b * c / 10000

/-- Q of a line from its usable count, strength sum, length and pixel levels (R41 to R47). -/
def lineQuality (usable strength nline : Nat) (levels : List (Option Nat)) : Nat :=
  qualityOf (completenessTerm usable nline) (strengthTerm (lineMean strength usable)) (impulseTerm (impulseCount levels))

/-- The copy a closing line forms (R31, R47, R51). -/
def formCopy (own : Receiver) (l : LineInProgress) : Copy :=
  let levels := pixelLevels l.pixels
  { pixels := levels.map storedPixel, q := lineQuality l.usable l.strength (wordsAfter l.next l.start) levels,
    u := unknownCount levels, source := own, origin := .localCopy }

/-- A copy of quality q is poor (R49). -/
def isPoor (floor q : Nat) : Bool := decide (q < floor)

/-- A new copy replaces a held one (R50). -/
def replaces (margin held new : Nat) : Bool := decide (held + margin ≤ new)

end Sys2Proof.Machine
end

