-- ==== Sys2Proof/Machine/Store.lean ====
section
/-! DEFINITION. The chart store (chapter 4) and chart identity (chapter 5): close, sweep and hold, the merge rule, freeing, allocation, binding, own keys and OPENs. -/

namespace Sys2Proof.Machine

/-! ## Chart length and completeness (R67 to R69) -/

/-- L (R67). -/
def Chart.length (c : Chart) : Nat :=
  match c.announced with
  | some n => n
  | none =>
    match c.highestHeld with
    | some h => h + 1
    | none => 0

/-- The announced length takes in a told length by keeping the greater; 0 leaves it (R68). -/
def Chart.announce (n : Nat) (c : Chart) : Chart :=
  if n = 0 then c else { c with announced := some (max (c.announced.getD 0) n) }

/-- A chart is complete: L at least 1 and every line below L held at or above the poor floor (R69). -/
def Chart.complete (floor : Nat) (c : Chart) : Bool :=
  decide (1 ≤ c.length) &&
    (List.range c.length).all (fun j =>
      match mapGet c.lineMap j with
      | some e => !isPoor floor e.q
      | none => false)

/-! ## Close, sweep, hold (R61 to R64) -/

/-- A slot enters HELD (R64): NOTE class 5 with the detail of the cause. -/
def enterHeld (i : SlotNo) (detail : Nat) (s : State) : State :=
  match recordAt s i with
  | none => s
  | some c =>
    raiseNote 5 (some c.key) (BitVec.ofNat 16 detail)
      (setChart i (some { c with state := .held, wantDue := none, sweepDeadline := none, used := true }) s)

/-- The completeness test of a slot in SWEEP (R62, R63, R69). -/
def testComplete (i : SlotNo) (s : State) : State :=
  match recordAt s i with
  | none => s
  | some c =>
    if c.state = .sweep ∧ c.complete s.ssv.boot.poorFloor = true then enterHeld i 1 s else s

/-- A close taken by a slot in LIVE (R61, R62, R84).
With sweep seconds 0 the detail of NOTE class 5 is 3 for every cause (R61, R175), silence among them (notes/assumptions/16.md). -/
def closeSlot (i : SlotNo) (reason : CloseReason) (s : State) : State :=
  match recordAt s i with
  | none => s
  | some c =>
    if c.state ≠ .live then s
    else
      let closed := { c with closeReason := some reason, bound := false }
      let seconds := s.ssv.boot.sweepSeconds
      if seconds = 0 then
        enterHeld i 3 (setOpenReq i .nothing (setChart i (some closed) s))
      else
        testComplete i
          (raiseNote 4 (some c.key) (BitVec.ofNat 16 (reasonCode reason))
            (setOpenReq i .nothing
              (setChart i (some { closed with state := .sweep, sweepDeadline := some (s.now + seconds * 1000) }) s)))

/-! ## The page pool and the merge rule (R53, R54, R70 to R73) -/

/-- Returns pages to the tail of the free list; a run of pool-empty drops ends at 64 free pages (R53, R54). -/
def returnPages (ps : List Nat) (s : State) : State :=
  let free := s.cst.free ++ ps
  { s with cst := { s.cst with
      free := free
      poolReported := if ps ≠ [] ∧ Config.poolRecovered ≤ free.length then false else s.cst.poolReported } }

/-- An offered copy is dropped for want of a page (R54). -/
def poolEmptyDrop (c : Chart) (index : Nat) (s : State) : State :=
  let s := bump 12 1 s
  if s.cst.poolReported then s
  else raiseNote 10 (some c.key) (BitVec.ofNat 16 index) { s with cst := { s.cst with poolReported := true } }

/-- The line map entry a copy makes on a page (R65, R73). -/
def entryOf (page : Nat) (copy : Copy) : LineEntry :=
  { page := page, q := copy.q, code := qualityCode copy.q, source := copy.source, origin := copy.origin, u := copy.u }

/-- The record after a copy is set on an entry: map, dirty flag, held count, poor count, highest held index (R66, R73). -/
def Chart.store (c : Chart) (floor index page : Nat) (copy : Copy) : Chart :=
  let old := mapGet c.lineMap index
  let wasPoor := match old with | some e => isPoor floor e.q | none => false
  let nowPoor := isPoor floor copy.q
  { c with
    lineMap := mapSet index (entryOf page copy) c.lineMap
    dirty := if qualityCode copy.q = ownCode c index then c.dirty else setDirty c.dirty (blockOf index)
    heldCount := if old.isNone then c.heldCount + 1 else c.heldCount
    poorCount := if nowPoor && old.isNone then c.poorCount + 1
                 else if wasPoor && !nowPoor then c.poorCount - 1 else c.poorCount
    highestHeld := some (max (c.highestHeld.getD 0) index) }

/-- A store on the page at the head of the free list (R73). -/
def storeCopy (i : SlotNo) (c : Chart) (index : Nat) (copy : Copy) (page : Nat) (rest : List Nat) (s : State) : State :=
  let old := mapGet c.lineMap index
  let s := { s with cst := { s.cst with free := rest, pages := Memory.write s.cst.pages page copy.pixels } }
  let s := setChart i (some (c.store s.ssv.boot.poorFloor index page copy)) s
  let s := returnPages (match old with | some e => [e.page] | none => []) s
  let s := bump (match copy.origin with | .localCopy => 1 | .peerCopy => 2) 1 s
  let s := if old.isSome then bump 3 1 s else s
  testComplete i s

/-- One offer to the merge rule: a copy of line `index`, obtained under `key`, for slot `i` (R70 to R73). -/
def mergeOffer (i : SlotNo) (key : Key) (index : Nat) (copy : Copy) (s : State) : State :=
  match recordAt s i with
  | none => s
  | some c0 =>
    if c0.answersTo key then
      let c := { c0 with lastReference := s.now }
      let s := setChart i (some c) s
      let surplus := match mapGet c.lineMap index with
        | some e => !replaces s.ssv.boot.margin e.q copy.q
        | none => false
      if surplus then
        match copy.origin with
        | .peerCopy => bump 13 1 s
        | .localCopy => s
      else
        match s.cst.free with
        | [] => poolEmptyDrop c index s
        | page :: rest => storeCopy i c index copy page rest s
    else s

/-! ## Freeing a slot (R77, R154) -/

/-- Whether a queued frame goes with a freed slot: CLAIM, TALLY, WANT and LINE frames of its keys, and its OPEN (R77, R154). -/
def leavesWithSlot (i : SlotNo) (c : Chart) (e : Entry) : Bool :=
  match e.payload with
  | .openF k .. => e.slot == some i && k == c.key
  | .tallyF k .. => c.answersTo k
  | .wantF k .. => c.answersTo k
  | .claimF k .. => c.answersTo k
  | .lineF k .. => c.answersTo k
  | _ => false

/-- Frees a slot: pages, view, claims, build lines, receptions, queued frames and record go in one act (R77, R134, R154); the builder is at work again only when the head line or a queued frame has left (R104, R143). -/
def freeSlot (i : SlotNo) (s : State) : State :=
  match recordAt s i with
  | none => s
  | some c =>
    let u := returnPages (c.lineMap.map (fun e => e.2.page)) s
    let u := setChart i none u
    let u := setOpenReq i .nothing (setView i .empty u)
    let u := dropClaims (fun e => c.answersTo e.key) u
    let u := setAssemblies (u.xen.assemblies.filter (fun a => !c.answersTo a.key)) u
    let u := setBuild (u.xen.build.filter (fun l => !c.answersTo l.key)) u
    retryBuild s (setQueue (requestEntries (leavesWithSlot i c) .remove u.slc.queue) u)

/-! ## Allocation (R56 to R58) -/

/-- The lowest-numbered FREE slot. -/
def lowestFree (s : State) : Option SlotNo := allSlots.find? (fun i => (recordAt s i).isNone)

/-- The second-chance pass with `visits` visits left (R57). -/
def secondChance : Nat → State → State × Option SlotNo
  | 0, s => (s, none)
  | visits + 1, s =>
    let i := s.cst.evictPtr
    let moved := { s with cst := { s.cst with evictPtr := i + 1 } }
    match recordAt s i with
    | none => secondChance visits moved
    | some c =>
      if c.state ≠ .held then secondChance visits moved
      else if c.used then secondChance visits (setChart i (some { c with used := false }) moved)
      else (raiseNote 6 (some c.key) 1 (freeSlot i moved), some i)

/-- A slot to allocate: the lowest FREE one, or one the pass of five visits evicts (R56, R57). -/
def findSlot (s : State) : State × Option SlotNo :=
  match lowestFree s with
  | some i => (s, some i)
  | none => secondChance 5 s

/-- The record of a slot at allocation; the binding's T_local or the adoption's peer transition time is given (R56). -/
def freshChart (key : Key) (tag : Nat) (rate : Rate) (tLocal : Option Nat) (tPeer : Option Int) (now : Nat) : Chart where
  state := .live
  key := key
  otherKey := none
  tag := tag
  rate := rate
  bound := tLocal.isSome
  offset := if tLocal.isSome then some 0 else none
  newest := none
  localTransition := tLocal
  peerTransition := tPeer
  announced := none
  highestHeld := none
  heldCount := 0
  poorCount := 0
  used := false
  lastReference := now
  wantDue := some (now + Config.wantMs)
  sweepDeadline := none
  closeReason := none
  opened := now
  dirty := 0
  lineMap := []

/-- Puts a chart in a slot, with a view of all codes 0 (R56, R117). -/
def installChart (i : SlotNo) (c : Chart) (s : State) : State :=
  setOpenReq i .nothing (setView i .empty (setChart i (some c) s))

/-- An allocation fails (R58). -/
def allocationFailed (key : Option Key) (detail : BitVec 16) (s : State) : State := bump 13 1 (raiseNote 11 key detail s)

/-! ## Own keys and OPENs (R81, R84) -/

/-- Whether a key is the key or second key of a slot that is not FREE. -/
def keyHeld (s : State) (k : Key) : Bool := (slotOf s k).isSome

def ownKey (s : State) (q : Byte) : Key := ⟨BitVec.ofNat 8 s.ssv.own.val, q⟩

/-- The first sequence from `q` on whose own key no slot holds; at most nine are tried (R81). -/
def freeSequence (s : State) : Nat → Byte → Byte
  | 0, q => q
  | tries + 1, q => if keyHeld s (ownKey s q) then freeSequence s tries (q + 1) else q

/-- The own sequence the next own key takes (R81). -/
def nextSequence (s : State) : Byte := freeSequence s 9 s.cst.ownSequence

/-- The own sequence moves on past a key just taken, and past held ones (R81). -/
def passSequence (q : Byte) (s : State) : State :=
  { s with cst := { s.cst with ownSequence := freeSequence s 9 (q + 1) } }

/-- The entry of a slot's OPEN, queued by `owner`; its delay is written at the win (R84, R103, R180). -/
def openEntry (owner : Block) (i : SlotNo) (c : Chart) : Entry where
  payload := .openF c.key (BitVec.ofNat 8 c.tag) (BitVec.ofNat 8 (rateCode c.rate)) 0
  owner := owner
  slot := some i
  transition := c.localTransition.getD 0
  waiting := []
  onWire := false

/-- `owner` puts a slot's OPEN to the queue; the open request becomes QUEUED, or OWED at a refusal (R84).
The CST does so at an allocation (R83) and for a repeat (R92), the XEN for an owed OPEN (R87) (notes/assumptions/32.md). -/
def queueOpen (owner : Block) (i : SlotNo) (s : State) : State :=
  match recordAt s i with
  | none => s
  | some c =>
    let r := enqueue (openEntry owner i c) s
    setOpenReq i (if r.2 then .queued else .owed) r.1

/-! ## Binding a local image (R59, R82, R83) -/

/-- Of the slots with a candidate offset, the one with the smallest, the lower number winning a tie (R83, R89, R90). -/
def nearestSlot (candidate : SlotNo → Option Int) : Option (SlotNo × Int) :=
  allSlots.foldl (fun best i =>
    match candidate i, best with
    | none, _ => best
    | some o, none => some (i, o)
    | some o, some (j, p) => if o.natAbs < p.natAbs then some (i, o) else some (j, p)) none

/-- The candidate offset of a slot bindable for a local image start (R82). -/
def bindCandidate (s : State) (rate : Rate) (tLocal : Nat) (i : SlotNo) : Option Int :=
  match recordAt s i with
  | none => none
  | some c =>
    if c.state = .live ∧ c.bound = false ∧ c.offset = none ∧ c.tag = s.ssv.boot.tag ∧ c.rate = rate then
      match c.peerTransition with
      | none => none
      | some p => offsetWithin8 tLocal p rate
    else none

/-- Binds a slot to the local image (R83). -/
def bindSlot (i : SlotNo) (o : Int) (tLocal : Nat) (s : State) : State :=
  match recordAt s i with
  | none => s
  | some c =>
    raiseNote 1 (some c.key) (BitVec.ofInt 16 (o + 8))
      (setChart i (some { c with bound := true, offset := some o, localTransition := some tLocal }) s)

/-- The framer's request at IMAGE entry: a slot bound, a slot opened under an own key, or none (R59, R83). -/
def requestSlot (rate : Rate) (tLocal : Nat) (s : State) : State × Option SlotNo :=
  match nearestSlot (bindCandidate s rate tLocal) with
  | some (i, o) => (bindSlot i o tLocal s, some i)
  | none =>
    let r := findSlot s
    match r.2 with
    | none => (allocationFailed none 1 r.1, none)
    | some i =>
      let s := r.1
      let q := nextSequence s
      let s := installChart i (freshChart (ownKey s q) s.ssv.boot.tag rate (some tLocal) none s.now) s
      (queueOpen .cst i (passSequence q s), some i)

/-- The CST's part of a commit: the shared index is formed, ranged, noted as newest and the copy offered (R33, R59). -/
def commitCopy (i : SlotNo) (index : Nat) (copy : Copy) (s : State) : State :=
  match recordAt s i with
  | none => bump 13 1 s
  | some c =>
    let shared : Int := (index : Int) + c.offset.getD 0
    if 0 ≤ shared ∧ shared < Config.chartLines then
      mergeOffer i c.key shared.toNat copy (setChart i (some { c with newest := some shared.toNat }) s)
    else bump 13 1 s

/-- The final length of a CLOSE (R93). -/
def finalLength (c : Chart) (highest : Option Nat) : Nat :=
  match highest with
  | none => 0
  | some h => (max 0 (min (Config.chartLines : Int) ((h : Int) + c.offset.getD 0 + 1))).toNat

/-- The local image of a bound slot ends: CLOSE queued, length taken in, slot unbound and closed (R93). -/
def endLocalImage (i : SlotNo) (reason : CloseReason) (highest : Option Nat) (s : State) : State :=
  match recordAt s i with
  | none => s
  | some c =>
    let n := finalLength c highest
    let s := (enqueue (newEntry (.closeF c.key (BitVec.ofNat 16 n) (BitVec.ofNat 8 (reasonCode reason))) .cst) s).1
    closeSlot i reason (updateChart i (fun c => { c.announce n with bound := false }) s)

end Sys2Proof.Machine
end

