-- ==== Sys2Proof/Machine/Framer.lean ====
section
/-! DEFINITION. The line framer (chapter 2): dark runs, phasing pulses, IMAGE entry, lines and pixels, the tail queue, image end. -/

namespace Sys2Proof.Machine

def setLfr (f : Lfr) (s : State) : State := { s with lfr := f }

/-! ## History and dark runs (R17, R18) -/

/-- Enters a word into the history; of more than 9,600 the oldest leave (R17). -/
def pushHistory (w : HeardWord) (h : List HeardWord) : List HeardWord :=
  (h ++ [w]).drop (h.length + 1 - Config.historyWords)

/-- A valid word at 64 or below is dark (R18). -/
def HeardWord.isDark (w : HeardWord) : Bool := w.valid && decide (w.level ≤ 64)

/-- A valid word at 192 or above is light (R18). -/
def HeardWord.isLight (w : HeardWord) : Bool := w.valid && decide (192 ≤ w.level)

/-- The dark run after a word (R18). -/
def nextDarkRun (w : HeardWord) (run : Option WordRun) : Option WordRun :=
  if w.isDark then
    match run with
    | none => some ⟨w.pos, 1⟩
    | some r => some ⟨r.first, min 385 (r.length + 1)⟩
  else none

/-- The pulse candidate a word brings: the run a light word ends (R18). -/
def pulseCandidate (w : HeardWord) (run : Option WordRun) : Option WordRun :=
  if w.isLight then run else none

/-! ## Pulses (R19, R20, R22, R23) -/

/-- The run lengths of a phasing pulse at a rate: 2% to 8% of Nw (R19). -/
def pulseBand (r : Rate) (length : Nat) : Bool :=
  decide (rateWords r ≤ 50 * length) && decide (100 * length ≤ 8 * rateWords r)

/-- The run lengths of a pulse in IDLE (R19). -/
def idleBand (length : Nat) : Bool := decide (24 ≤ length) && decide (length ≤ 384)

/-- A rate fits an interval and two run lengths (R20). -/
def rateFits (interval run1 run2 : Nat) (r : Rate) : Bool :=
  decide (50 * ((interval : Int) - rateWords r).natAbs ≤ interval) && pulseBand r run1 && pulseBand r run2

/-- The rate two pulses choose, tested in the order 120, 60, 240 lpm (R20). -/
def chooseRate (interval run1 run2 : Nat) : Option Rate :=
  [Rate.r120, .r60, .r240].find? (rateFits interval run1 run2)

/-- P clamped to 16 × Nw ± 16 × Nw / 100 (R23). -/
def clampPeriod (r : Rate) (p : Nat) : Nat :=
  clampTo (16 * rateWords r - 16 * rateWords r / 100) (16 * rateWords r + 16 * rateWords r / 100) p

/-- The tolerance of a predicted pulse: Nw / 100 (R22). -/
def pulseTolerance (r : Rate) : Nat := rateWords r / 100

/-- P from the first and last entries of the pulse list (R23). -/
def periodOf (r : Rate) (pulses : List Pulse) : Option Nat :=
  match pulses.head?, pulses.getLast? with
  | some a, some b => some (clampPeriod r (roundHalfUp (16 * wordsAfter b.pos a.pos) (b.beat - a.beat)))
  | _, _ => none

/-- The predicted position with miss count m (R22). -/
def predictedPulse (pulses : List Pulse) (period m : Nat) : Option Position :=
  match pulses with
  | [a, b] => some (b.pos + BitVec.ofNat 40 ((m + 1) * wordsAfter b.pos a.pos))
  | _ => pulses.getLast?.map (fun b => wordOf (finePosition b.pos + BitVec.ofNat 44 ((m + 1) * period)))

/-- IDLE takes a qualifying pulse: the first, or a second that may choose a rate and enter PHASING (R20). -/
def idlePulse (c : WordRun) (now : Nat) (f : Lfr) : Lfr :=
  match f.firstPulse with
  | none => { f with firstPulse := some c }
  | some a =>
    let interval := wordsAfter c.first a.first
    match chooseRate interval a.length c.length with
    | none => { f with firstPulse := some c }
    | some r =>
      { f with
        state := .phasing, rate := some r, pulses := [⟨a.first, 0⟩, ⟨c.first, 1⟩],
        period := some (clampPeriod r (16 * interval)), missCount := 0, phasingSince := some now, firstPulse := none }

/-- PHASING takes a qualifying pulse near the predicted position (R22, R23). -/
def phasingPulse (c : WordRun) (r : Rate) (now : Nat) (f : Lfr) : Lfr :=
  match predictedPulse f.pulses (f.period.getD 0) f.missCount, f.pulses.getLast? with
  | some p, some lastPulse =>
    if isWithin c.first p (pulseTolerance r) then
      let grown := f.pulses ++ [⟨c.first, lastPulse.beat + f.missCount + 1⟩]
      let pulses := if Config.pulseRoom < grown.length then grown.drop 1 else grown
      { f with pulses := pulses, period := periodOf r pulses, missCount := 0, phasingSince := some now }
    else f
  | _, _ => f

/-- The framer judges a pulse candidate by its state (R19). -/
def judgePulse (c : WordRun) (now : Nat) (f : Lfr) : Lfr :=
  match f.state, f.rate with
  | .idle, _ => if idleBand c.length then idlePulse c now f else f
  | .phasing, some r => if pulseBand r c.length then phasingPulse c r now f else f
  | _, _ => f

/-- The word hand-off up to the pulse: history, dark run, candidate (R17 to R22). -/
def detectPulse (w : HeardWord) (now : Nat) (f : Lfr) : Lfr :=
  let f' := { f with history := pushHistory w f.history, darkRun := nextDarkRun w f.darkRun }
  match pulseCandidate w f.darkRun with
  | none => f'
  | some c => judgePulse c now f'

/-! ## Lines, pixels and commits (R29 to R33) -/

/-- A line with no word yet. -/
def freshLine (index : Nat) (start next : Position) : LineInProgress :=
  ⟨index, start, next, List.replicate Config.linePixels (0, 0), 0, 0⟩

/-- Line `index` of the image (R29). -/
def lineAt (f : Lfr) (index : Nat) : LineInProgress :=
  let z := f.zero.getD 0
  let p := f.period.getD 0
  freshLine index (lineStart z p index) (lineStart z p (index + 1))

/-- The pixel word `o` of a line of `nline` words belongs to (R30). -/
def pixelOf (o nline : Nat) : Nat := o * Config.linePixels / nline

/-- A word is applied to its line; one that is not usable adds nothing (R30). -/
def applyWord (w : HeardWord) (l : LineInProgress) : LineInProgress :=
  if w.usable then
    let i := pixelOf (wordsAfter w.pos l.start) (wordsAfter l.next l.start)
    { l with
      pixels := l.pixels.modify i (fun p => (p.1 + w.level, p.2 + 1))
      usable := l.usable + 1
      strength := l.strength + w.strength }
  else l

/-- A line leaves the tail for the CST (R33). -/
def commitLine (l : TailLine) (s : State) : State :=
  let s := setLfr { s.lfr with highest := some l.index } s
  match s.lfr.bound with
  | none => bump 13 1 s
  | some i => commitCopy i l.index l.copy s

def setTail (t : List TailLine) (s : State) : State := setLfr { s.lfr with tail := t } s

/-- Commits lines from the head while the head's end lies 9,600 words behind the word at `pos` (R32). -/
def commitDue (pos : Position) : List TailLine → State → State
  | [], s => setTail [] s
  | l :: rest, s =>
    if Config.historyWords ≤ wordsAfter pos l.last then commitDue pos rest (commitLine l s)
    else setTail (l :: rest) s

/-- Commits the tail lines kept, oldest first, and empties the tail (R35, R38). -/
def commitTail (keep : TailLine → Bool) (s : State) : State :=
  setTail [] ((s.lfr.tail.filter keep).foldl (fun s l => commitLine l s) s)

/-! ## Image end and the return to IDLE (R34 to R39) -/

/-- The common return to IDLE (R39). -/
def returnToIdle (startSeen : Bool) (f : Lfr) : Lfr :=
  { f with
    state := .idle, startSeen := startSeen, firstPulse := none, rate := none, pulses := [], period := none,
    missCount := 0, phasingSince := none, zero := none, tLocal := none, line := none, tail := [], fadedCount := 0,
    bound := none, highest := none }

/-- The key of the bound slot, none when unbound. -/
def boundKey (s : State) : Option Key :=
  match s.lfr.bound with
  | none => none
  | some i => (recordAt s i).map (·.key)

/-- The end of an image once its tail is dealt with: the CST is told, NOTE class 3 is raised, the framer returns to IDLE (R39). -/
def finishImage (reason : CloseReason) (startSeenNext : Bool) (s : State) : State :=
  let key := boundKey s
  let seen := s.lfr.startSeen
  let s := match s.lfr.bound with
    | none => s
    | some i => endLocalImage i reason s.lfr.highest s
  let s := raiseNote 3 key (BitVec.ofNat 16 (reasonCode reason + (if seen then 256 else 0))) s
  setLfr (returnToIdle startSeenNext s.lfr) s

/-- An image ended by a tone: tail lines that start before the boundary commit, the others are discarded (R35 to R37). -/
def endByTone (reason : CloseReason) (boundary : Position) (startSeenNext : Bool) (s : State) : State :=
  finishImage reason startSeenNext (commitTail (fun l => isBefore l.start boundary) s)

/-- An image ended by FADE or LIMIT: the whole tail commits (R38). -/
def endByFadeOrLimit (reason : CloseReason) (s : State) : State :=
  finishImage reason false (commitTail (fun _ => true) s)

/-- A line closes: its copy is formed and enters the tail; line 2,055 ends the image (R31). -/
def closeLine (l : LineInProgress) (s : State) : State :=
  let s := bump 0 1 s
  let t : TailLine := ⟨l.index, l.start, l.next - 1, formCopy s.ssv.own l⟩
  let s := match s.lfr.tail with
    | [] => s
    | h :: rest => if Config.tailRoom ≤ s.lfr.tail.length then setTail rest (commitLine h s) else s
  let s := setTail (s.lfr.tail ++ [t]) s
  if l.index = Config.lastLocalIndex then endByFadeOrLimit .limit (setLfr { s.lfr with line := none } s)
  else setLfr { s.lfr with line := some (lineAt s.lfr (l.index + 1)) } s

/-- A word in IMAGE: it may close the line in progress, is applied to its line, and commits what is due (R29 to R32). -/
def imageWord (w : HeardWord) (s : State) : State :=
  match s.lfr.state, s.lfr.line with
  | .image, some l =>
    let s := if isBefore w.pos l.next then s else closeLine l s
    match s.lfr.line with
    | none => s
    | some l' =>
      let s := setLfr { s.lfr with line := some (applyWord w l') } s
      commitDue w.pos s.lfr.tail s
  | _, _ => s

/-! ## Misses and IMAGE entry (R24, R25, R28) -/

/-- Whether a dark run in progress still holds the decision back: it began within the tolerance and is below 385 (R24). -/
def runHolds (run : Option WordRun) (p : Position) (tolerance : Nat) : Bool :=
  match run with
  | none => false
  | some r => isWithin r.first p tolerance && decide (r.length < 385)

/-- Whether the miss of the predicted pulse is decided at the word at `pos` (R24). -/
def missDecided (f : Lfr) (r : Rate) (pos : Position) : Bool :=
  match predictedPulse f.pulses (f.period.getD 0) f.missCount with
  | none => false
  | some p =>
    !(isBefore pos (p + BitVec.ofNat 40 (pulseTolerance r + 1))) && !(runHolds f.darkRun p (pulseTolerance r))

/-- The words of the history from position `start` on, in order (R28). -/
def wordsFrom (start : Position) (h : List HeardWord) : List HeardWord :=
  h.filter (fun w => !isBefore w.pos start)

/-- IMAGE entry: T_local, slot request and rebuild from the word history (R25, R28). -/
def enterImage (r : Rate) (s : State) : State :=
  let f := s.lfr
  match f.pulses.getLast? with
  | none => s
  | some lastPulse =>
    let z := finePosition lastPulse.pos + BitVec.ofNat 44 (f.period.getD 0)
    let f := { f with
      state := .image, zero := some z, tLocal := some s.now, phasingSince := none, missCount := 0, fadedCount := 0,
      highest := none, tail := [], bound := none }
    let s := setLfr { f with line := some (lineAt f 0) } s
    let q := requestSlot r s.now s
    let s := setLfr { q.1.lfr with bound := q.2 } q.1
    (wordsFrom (wordOf z) s.lfr.history).foldl (fun s w => imageWord w s) s

/-- A miss is decided: the first raises the count, the second ends phasing in IMAGE or IDLE (R24, R25). -/
def takeMiss (r : Rate) (s : State) : State :=
  if s.lfr.missCount = 0 then setLfr { s.lfr with missCount := 1 } s
  else if 8 ≤ s.lfr.pulses.length then enterImage r s
  else setLfr (returnToIdle false s.lfr) s

/-- The miss decision of a word in PHASING (R24). -/
def decideMiss (w : HeardWord) (s : State) : State :=
  match s.lfr.state, s.lfr.rate with
  | .phasing, some r => if missDecided s.lfr r w.pos then takeMiss r s else s
  | _, _ => s

/-- One word hand-off to the framer (R17 to R33). -/
def framerWord (w : HeardWord) (s : State) : State :=
  let wasImage := s.lfr.state
  let s := setLfr (detectPulse w s.now s.lfr) s
  match wasImage with
  | .image => imageWord w s
  | _ => decideMiss w s

/-! ## Window reports (R5, R21, R27, R34 to R37) -/

/-- The report of a window (R5). -/
structure WindowReport where
  number : Nat
  faded : Bool
  start : Option Position
  stop : Option Position
deriving DecidableEq, Repr

/-- The fade verdict of a window in IMAGE that confirmed no pattern (R34). -/
def imageFade (faded : Bool) (s : State) : State :=
  if !faded then setLfr { s.lfr with fadedCount := 0 } s
  else
    let n := s.lfr.fadedCount + 1
    if n < s.ssv.boot.fadeSeconds * 4 then setLfr { s.lfr with fadedCount := n } s
    else
      match s.ssv.boot.fadeMode with
      | .close => endByFadeOrLimit .fade s
      | .report =>
        raiseNote 9 (boundKey s) (BitVec.ofNat 16 ((s.lfr.line.map (·.index)).getD 0))
          (setLfr { s.lfr with fadedCount := 0 } s)
      | .none => setLfr { s.lfr with fadedCount := 0 } s

/-- A window report in IMAGE (R34 to R37). -/
def imageReport (r : WindowReport) (s : State) : State :=
  match r.stop, r.start with
  | some p, none => endByTone .stop p false s
  | none, some p => endByTone .start p true s
  | some p, some q => if isBefore q p then endByTone .start q true s else endByTone .stop p true s
  | none, none => imageFade r.faded s

/-- The framer acts on a window report by its state (R21, R27, R34). -/
def framerReport (r : WindowReport) (s : State) : State :=
  match s.lfr.state with
  | .idle => if r.start.isSome then setLfr { s.lfr with startSeen := true } s else s
  | .phasing =>
    if r.stop.isSome then setLfr (returnToIdle r.start.isSome s.lfr) s
    else if r.start.isSome then setLfr { s.lfr with startSeen := true } s
    else s
  | .image => imageReport r s

end Sys2Proof.Machine
end

