-- ==== Sys2Proof/Machine/Conditioning.lean ====
section
/-! DEFINITION. The LCU (chapter 1): words, windows, the tuning loop, the clip monitor, the gain-down pulse, the pattern recognisers. -/

namespace Sys2Proof.Machine

def setLcu (l : Lcu) (s : State) : State := { s with lcu := l }

/-! ## Words (R1 to R4) -/

/-- The crossing state a valid word leaves (R3). -/
def nextCrossing (level : Nat) (c : Crossing) : Crossing :=
  if level ≤ 96 then .dark else if 160 ≤ level then .bright else c

/-- A change between DARK and BRIGHT is one crossing; a change out of UNSET is none (R3). -/
def isCrossing (before after : Crossing) : Bool := before != .unset && before != after

/-- The word as it is handed to the framer (R2). -/
def handOff (bits : BitVec 16) (l : Lcu) : HeardWord :=
  let w := readLevelWord bits
  ⟨l.wordPos, correctLevel w.level l.offset, w.strength, w.valid, w.overload⟩

/-- The window accumulators after a word; `crossed` says whether the word caused a crossing (R4). -/
def accumulate (w : HeardWord) (crossed : Bool) (a : WindowAcc) : WindowAcc where
  usable := if w.usable then a.usable + 1 else a.usable
  strengthSum := if w.usable then a.strengthSum + w.strength else a.strengthSum
  overload := if w.overload then a.overload + 1 else a.overload
  crossings := if crossed then a.crossings + 1 else a.crossings
  brightCount := if w.usable && decide (128 ≤ w.level) then a.brightCount + 1 else a.brightCount
  brightSum := if w.usable && decide (128 ≤ w.level) then a.brightSum + w.level else a.brightSum

/-- The LCU's own part in taking a word: position, count, crossing detector, accumulators (R1, R3, R4). -/
def lcuWord (w : HeardWord) (l : Lcu) : Lcu :=
  let c := if w.valid then nextCrossing w.level l.crossing else l.crossing
  { l with
    wordPos := l.wordPos + 1
    windowCount := l.windowCount + 1
    crossing := c
    acc := accumulate w (isCrossing l.crossing c) l.acc }

/-! ## Tuning loop (R7 to R10) -/

/-- One step toward the band 234..246 (R9). -/
def tuningStep (wt : Nat) (l : Lcu) : Lcu :=
  let status : TuningStatus := if 246 < wt then .high else if wt < 234 then .low else .inBand
  let offset : Int := if 246 < wt then min 48 (l.offset + 2) else if wt < 234 then max (-48) (l.offset - 2) else l.offset
  { l with status := status, offset := offset, tuningBlank := if offset = l.offset then l.tuningBlank else 2 }

/-- A blanking window consumes one count at its close (R7). -/
def consumeBlank (wasBlank : Bool) (l : Lcu) : Lcu :=
  if wasBlank then { l with tuningBlank := l.tuningBlank - 1 } else l

/-- The tuning loop at a window close: the LCU after it, and the offset before a jump reset if there was one (R7 to R9). -/
def tuneWindow (b : BootFields) (a : WindowAcc) (l : Lcu) : Lcu × Option Int :=
  if !b.tuningOn then (l, none)
  else
    let wasBlank := decide (l.tuningBlank ≠ 0)
    if tuningEligible b.fadeThreshold a then
      let wt := a.brightMean
      let run := if windowFar wt then l.jumpRun + 1 else 0
      if 4 ≤ run then
        ({ l with offset := 0, tuningBlank := 2, jumpRun := 0 }, some l.offset)
      else
        let l := { l with jumpRun := run }
        (consumeBlank wasBlank (if wasBlank then l else tuningStep wt l), none)
    else (consumeBlank wasBlank { l with jumpRun := 0 }, none)

/-! ## Clip monitor and gain-down (R11, R12) -/

/-- A gain-down pulse is called for: GDN high, the 20 ms counted afresh (R12). -/
def gainDownPulse (s : State) : State :=
  setLcu { s.lcu with gdn := true, gainDownEnd := some (s.now + Config.gainDownMs) } s

/-- A clipped window is counted and NOTE class 7 raised (R11). -/
def reportClipped (a : WindowAcc) (s : State) : State := raiseNote 7 none (BitVec.ofNat 16 a.overload) (bump 14 1 s)

/-- The clip monitor at a window close (R11). -/
def clipWindow (a : WindowAcc) (s : State) : State :=
  match s.ssv.boot.clipMode with
  | .none => s
  | .report => if windowClipped a then reportClipped a s else s
  | .act =>
    if s.lcu.clipBlank ≠ 0 then setLcu { s.lcu with clipBlank := s.lcu.clipBlank - 1 } s
    else if windowClipped a then
      let s := gainDownPulse (reportClipped a s)
      setLcu { s.lcu with clipBlank := 4 } s
    else s

/-! ## Patterns (R13, R14) -/

/-- A pattern's run at a window close, and whether it is confirmed at this close (R14). -/
def patternWindow (matched : Bool) (first : Position) (p : PatternRun) : PatternRun × Bool :=
  if !matched then (.zero, false)
  else
    let run := min 8 (p.run + 1)
    let firstWord := if p.run = 0 then some first else p.first
    if run = 8 ∧ p.confirmed = false then (⟨run, firstWord, true⟩, true)
    else (⟨run, firstWord, p.confirmed⟩, false)

/-! ## Window close (R4, R5) -/

/-- The tuning loop's part of a window close, with NOTE class 8 at a jump reset (R8). -/
def closeTuning (a : WindowAcc) (s : State) : State :=
  let t := tuneWindow s.ssv.boot a s.lcu
  match t.2 with
  | none => setLcu t.1 s
  | some o => raiseNote 8 none (BitVec.ofInt 16 o) (setLcu t.1 s)

/-- The close of the window whose first word is at `first`: verdict, tuning, clip, patterns, report (R4 to R15). -/
def closeWindow (first : Position) (s : State) : State :=
  let a := s.lcu.acc
  let faded := fadeVerdict s.ssv.boot.fadeThreshold a
  let s := setLcu { s.lcu with acc := .zero, windowCount := 0 } s
  let s := if faded then bump 15 1 s else s
  let s := closeTuning a s
  let s := clipWindow a s
  let start := patternWindow (patternMatches s.ssv.boot.startRate a.crossings) first s.lcu.start
  let stop := patternWindow (patternMatches s.ssv.boot.stopRate a.crossings) first s.lcu.stop
  let s := setLcu { s.lcu with start := start.1, stop := stop.1 } s
  framerReport
    ⟨first.toNat / Config.windowWords, faded, if start.2 then start.1.first else none,
      if stop.2 then stop.1.first else none⟩ s

/-- A level word is taken: LCU, framer, and at the 1,200th word the window close (R1 to R5). -/
def takeWord (bits : BitVec 16) (s : State) : State :=
  let w := handOff bits s.lcu
  let s := setLcu (lcuWord w s.lcu) s
  let s := framerWord w s
  if Config.windowWords ≤ s.lcu.windowCount then closeWindow (w.pos - BitVec.ofNat 40 (Config.windowWords - 1)) s else s

end Sys2Proof.Machine
end

