-- ==== Sys2Proof/Machine/Level.lean ====
section
/-! DEFINITION. The meanings of the level port's commands: LEVEL_WORD, WORD_DISCARD, GAIN_DOWN_END, PHASING_TIMEOUT. -/

namespace Sys2Proof.Machine

/-- LEVEL_WORD (R1): in reset and boot no word is taken, and one that LWF marked before the end of boot is discarded as an incomplete word is. -/
def execLevelWord (t : Nat) (word : MarkedWord) (s : State) : Host.Outcome State Fault Refusal :=
  .next (
    let s := advance t s
    if s.phase = .running ∧ word.mark = .afterEndOfBoot then takeWord word.bits s else s)

/-- WORD_DISCARD (R1): the incomplete word gets no position, enters no window and is not handed on. -/
def execWordDiscard (t : Nat) (s : State) : Host.Outcome State Fault Refusal := .next (advance t s)

/-- GAIN_DOWN_END (R12): at the end of the 20 ms GDN returns low. -/
def execGainDownEnd (t : Nat) (s : State) : Host.Outcome State Fault Refusal :=
  let s := advance t s
  .next (if reached s.lcu.gainDownEnd s then setLcu { s.lcu with gdn := false, gainDownEnd := none } s else s)

/-- Whether the phasing timer has reached its end in PHASING (R26). -/
def phasingOver (s : State) : Bool :=
  s.lfr.state == .phasing && reached (s.lfr.phasingSince.map (· + Config.phasingMs)) s

/-- PHASING_TIMEOUT (R26): back to IDLE, start seen cleared. -/
def execPhasingTimeout (t : Nat) (s : State) : Host.Outcome State Fault Refusal :=
  let s := advance t s
  .next (if phasingOver s then setLfr (returnToIdle false s.lfr) s else s)

end Sys2Proof.Machine
end

