-- ==== Sys2Proof/Machine/Exchange.lean ====
section
/-! DEFINITION. The exchange engine (chapters 5, 7, 8): heard OPENs and CLOSEs, tallies, want rounds, answers, claims, completions of own frames, reassembly. -/

namespace Sys2Proof.Machine

/-! ## Malformed content (R176) -/

/-- A frame ignored on a content check is counted in counter 5 (R176). -/
def countMalformed (s : State) : State := bump 5 1 s

/-! ## Heard OPEN (R88 to R92) -/

/-- Re-keying of a slot by withdrawal, wherever the given-up key stands (R89, R105, R137). -/
def replaceKeyEverywhere (old new : Key) (s : State) : State :=
  let s := setQueue (requestEntries (fun _ => true) (.replaceKey old new) s.slc.queue) s
  let s := setClaims (s.xen.claims.map (fun c => { c with key := swapKey old new c.key })) s
  setBuild (s.xen.build.map (fun l => { l with key := swapKey old new l.key })) s

/-- The implied offset of a slot whose own OPEN is queued (R89). -/
def withdrawCandidate (s : State) (rate : Rate) (tPeer : Int) (i : SlotNo) : Option Int :=
  match recordAt s i with
  | none => none
  | some c =>
    if s.xen.openReq[i] = .queued ∧ c.rate = rate then
      match c.localTransition with
      | none => none
      | some t => offsetWithin8 t tPeer rate
    else none

/-- Whether an entry is the OPEN of a slot under a key (R103). -/
def Entry.isOpenOf (i : SlotNo) (key : Key) (e : Entry) : Bool :=
  match e.payload with
  | .openF k .. => e.slot == some i && k == key
  | _ => false

/-- Withdrawal: the queued OPEN goes, and the slot takes the heard key (R89). -/
def withdrawOpen (i : SlotNo) (o tPeer : Int) (heard : Key) (s : State) : State :=
  match recordAt s i with
  | none => s
  | some c =>
    let s := withdrawEntries (Entry.isOpenOf i c.key) .remove s
    let s := setOpenReq i .nothing s
    let s := updateChart i (fun c => { c with key := heard, offset := some o, peerTransition := some tPeer }) s
    let s := replaceKeyEverywhere c.key heard s
    raiseNote 1 (some heard) (BitVec.ofInt 16 (o + 8 + 256)) s

/-- The distance in lines of a LIVE slot's transition from a heard OPEN's (R90). -/
def aliasCandidate (s : State) (rate : Rate) (tPeer : Int) (i : SlotNo) : Option Int :=
  match recordAt s i with
  | none => none
  | some c =>
    if c.state = .live ∧ c.rate = rate then
      if c.bound then
        match c.localTransition with
        | none => none
        | some t => offsetWithin8 t tPeer rate
      else
        match c.peerTransition with
        | none => none
        | some p => offsetWithin8 p tPeer rate
    else none

/-- A second key is recorded on a slot; a slot under an own key repeats its OPEN (R90, R92). -/
def recordAlias (i : SlotNo) (heard : Key) (s : State) : State :=
  match recordAt s i with
  | none => s
  | some c =>
    if c.otherKey.isSome then s
    else
      let s := setChart i (some { c with otherKey := some heard }) s
      let s := raiseNote 2 (some c.key) (keyNumber heard) s
      if c.key.opener.toNat = s.ssv.own.val then queueOpen .cst i s else s

/-- Adoption of a chart announced by a peer (R91). -/
def adoptChart (heard : Key) (tag : Nat) (rate : Rate) (tPeer : Int) (s : State) : State :=
  let r := findSlot s
  match r.2 with
  | none => allocationFailed (some heard) 2 r.1
  | some i => installChart i (freshChart heard tag rate none (some tPeer) r.1.now) r.1

/-- A heard OPEN of own tag and unknown key: withdrawal, second key or adoption, the first that applies (R88 to R91). -/
def takeOpen (heard : Key) (tag : Nat) (rate : Rate) (tPeer : Int) (s : State) : State :=
  match nearestSlot (withdrawCandidate s rate tPeer) with
  | some (i, o) => withdrawOpen i o tPeer heard s
  | none =>
    match nearestSlot (aliasCandidate s rate tPeer) with
    | some (i, _) => recordAlias i heard s
    | none => adoptChart heard tag rate tPeer s

/-- The checks on a heard OPEN (R88). -/
def judgeOpen (sender : Station) (stamp : Nat) (k : Key) (tag rate : Byte) (delay : BitVec 16) (s : State) : State :=
  match rateOfCode rate.toNat with
  | none => countMalformed s
  | some r =>
    if 7 < k.opener.toNat ∨ k.opener.toNat ≠ sender.val then countMalformed s
    else if tag.toNat ≠ s.ssv.boot.tag ∨ keyHeld s k = true then s
    else takeOpen k tag.toNat r ((stamp : Int) - delay.toNat) s

/-! ## Heard CLOSE and DROP (R76, R94) -/

/-- A heard CLOSE (R94). -/
def judgeClose (k : Key) (length : BitVec 16) (reason : Byte) (s : State) : State :=
  match reasonOfCode reason.toNat with
  | none => countMalformed s
  | some r =>
    if Config.chartLines < length.toNat then countMalformed s
    else
      match slotOf s k with
      | none => s
      | some i =>
        let s := updateChart i (Chart.announce length.toNat) s
        match recordAt s i with
        | some c => if c.state = .live ∧ c.bound = false then closeSlot i r s else s
        | none => s

/-- A heard DROP (R76). -/
def judgeDrop (k : Key) (s : State) : State :=
  match slotOf s k with
  | none => s
  | some i =>
    match recordAt s i with
    | none => s
    | some c => if c.state = .held then raiseNote 6 (some c.key) 2 (freeSlot i s) else s

/-! ## Tallies (R118, R122, R123) -/

/-- Writes codes for lines from a base on into a peer's column (R118). -/
def writeCodes (i : SlotNo) (r : Receiver) : Nat → List (BitVec 4) → State → State
  | _, [], s => s
  | j, c :: rest, s => writeCodes i r (j + 1) rest (setPeerCode i r j c.toNat s)

/-- A heard TALLY (R118). -/
def judgeTally (sender : Station) (k : Key) (base : BitVec 16) (codes : List (BitVec 4)) (s : State) : State :=
  match receiverOf sender with
  | none => s
  | some r =>
    if !baseOk base then countMalformed s
    else
      match slotOf s k with
      | none => s
      | some i => writeCodes i r base.toNat codes s

/-- The slots in the order of a tally expiry's visits (R122). -/
def visitOrder (p : SlotNo) : List SlotNo := [p, p + 1, p + 2, p + 3]

/-- Whether a slot has a dirty flag set (R122). -/
def hasDirty (s : State) (i : SlotNo) : Bool :=
  match recordAt s i with
  | some c => c.dirty != 0
  | none => false

/-- Queues TALLYs for dirty blocks, ascending, at most `frames`, until one is refused (R123). -/
def queueTallies (i : SlotNo) : Nat → List Nat → State → State
  | 0, _, s => s
  | _, [], s => s
  | frames + 1, b :: rest, s =>
    match recordAt s i with
    | none => s
    | some c =>
      let r := enqueue (newEntry (.tallyF c.key (BitVec.ofNat 16 (32 * b)) (blockCodes c (32 * b))) .xen) s
      if r.2 then queueTallies i frames rest (updateChart i (fun c => { c with dirty := clearDirty c.dirty b }) r.1)
      else r.1

/-- A tally expiry: the next slot with dirty blocks is served (R122, R123). -/
def tallyRound (s : State) : State :=
  match (visitOrder s.xen.tallyPtr).find? (hasDirty s) with
  | none => s
  | some i =>
    let s := { s with xen := { s.xen with tallyPtr := i + 1 } }
    match recordAt s i with
    | none => s
    | some c => queueTallies i 4 (dirtyBlocks c.dirty) s

/-! ## Want rounds (R125 to R129) -/

/-- The horizon of a slot's round, none when there is none or it lies below 0 (R125). -/
def horizon (c : Chart) : Option Nat :=
  let behind (n : Option Nat) : Option Nat :=
    match n with
    | some h => if 4 ≤ h then some (h - 4) else none
    | none => none
  match c.state with
  | .live => if c.bound then behind c.newest else behind c.highestHeld
  | .sweep => if c.length = 0 then none else some (c.length - 1)
  | .held => none

/-- The present peers: receivers other than own station that the peer table marks present (R126). -/
def presentPeers (s : State) : List Receiver :=
  (otherReceivers s.ssv.own).filter (fun r => (s.ssv.peers[stationOf r]).isSome)

/-- A peer's code for a line of a slot (R117). -/
def peerCode (s : State) (i : SlotNo) (r : Receiver) (index : Nat) : Nat := codeAt (s.xen.views[i])[r] index

/-- Test (a): some present peer's code is at least the own code + 2 (R126). -/
def wantedByView (s : State) (i : SlotNo) (c : Chart) (j : Nat) : Bool :=
  (presentPeers s).any (fun r => decide (ownCode c j + 2 ≤ peerCode s i r j))

/-- The conditions of a wanted line other than (a) and (b) (R126). -/
def askable (s : State) (c : Chart) (j : Nat) : Bool :=
  (match horizon c with | some h => decide (j ≤ h) | none => false) &&
  decide (ownCode c j < s.ssv.boot.wantLevel) &&
  !claimed s.xen.claims c.key j &&
  (match c.otherKey with | some k => !claimed s.xen.claims k j | none => true)

/-- A line is wanted in a round (R126). -/
def wanted (s : State) (i : SlotNo) (c : Chart) (j : Nat) : Bool :=
  askable s c j && (wantedByView s i c j || (c.state == .sweep && (mapGet c.lineMap j).isNone))

/-- The best code a present peer holds for a line (R127). -/
def bestCode (s : State) (i : SlotNo) (j : Nat) : Nat :=
  (presentPeers s).foldl (fun m r => max m (peerCode s i r j)) 0

/-- The peers that hold the best code for a line (R127). -/
def bestPeers (s : State) (i : SlotNo) (j : Nat) : List Receiver :=
  (presentPeers s).filter (fun r => peerCode s i r j == bestCode s i j)

/-- The stations a broadcast WANT names: present receivers of own tag (R128). -/
def broadcastPeers (s : State) : List Receiver :=
  (presentPeers s).filter (fun r =>
    match s.ssv.peers[stationOf r] with
    | some p => p.roster == some (.receiver, s.ssv.boot.tag)
    | none => false)

/-- The places 0..31 of a block's wanted lines. -/
def wantedPlaces (s : State) (i : SlotNo) (c : Chart) (b : Nat) : List Nat :=
  (List.range 32).filter (fun p => wanted s i c (32 * b + p))

/-- The address mask of a block (R127, R128). -/
def blockAddress (s : State) (i : SlotNo) (c : Chart) (b : Nat) : BitVec 16 :=
  let byView := (wantedPlaces s i c b).filter (fun p => wantedByView s i c (32 * b + p))
  if byView = [] then addressMask (broadcastPeers s)
  else addressMask (byView.flatMap (fun p => bestPeers s i (32 * b + p)))

/-- The block a round asks for: the first with a wanted line and a nonempty address mask (R127, R128). -/
def chosenBlock (s : State) (i : SlotNo) (c : Chart) : Option Nat :=
  (List.range 64).find? (fun b => !(wantedPlaces s i c b).isEmpty && blockAddress s i c b != 0)

/-- The WANT of a block (R129). -/
def wantFrame (s : State) (i : SlotNo) (c : Chart) (b : Nat) : Payload :=
  .wantF c.key (BitVec.ofNat 16 (32 * b)) (lineMask (wantedPlaces s i c b)) (blockCodes c (32 * b)) (blockAddress s i c b)

/-- A want round (R125 to R129). -/
def wantRound (i : SlotNo) (s : State) : State :=
  match recordAt s i with
  | none => s
  | some c =>
    match chosenBlock s i c with
    | none => s
    | some b =>
      let r := enqueue (newEntry (wantFrame s i c b) .xen) s
      if r.2 then bump 11 1 r.1 else r.1

/-! ## Answering a WANT (R130, R135, R136) -/

/-- The candidate places of a WANT's block (R135). -/
def candidatePlaces (s : State) (c : Chart) (base : Nat) (mask : BitVec 32) (codes : List (BitVec 4)) : List Nat :=
  (maskPlaces mask).filter (fun p =>
    (mapGet c.lineMap (base + p)).isSome &&
    decide ((codes.getD p 0).toNat + 2 ≤ ownCode c (base + p)) &&
    !claimed s.xen.claims c.key (base + p))

/-- The own PENDING entry of a candidate (R136). -/
def pendingClaim (own : Receiver) (c : Chart) (index : Nat) : Claim :=
  ⟨c.key, index, own, some (ownCode c index), .pending, none⟩

/-- Answers a WANT from the slot it reached: candidates into the claim table, one CLAIM to the queue (R135, R136). -/
def answerWant (i : SlotNo) (base : Nat) (mask : BitVec 32) (codes : List (BitVec 4)) (s : State) : State :=
  match recordAt s i with
  | none => s
  | some c =>
    let places := candidatePlaces s c base mask codes
    let room := Config.claimRoom - s.xen.claims.length
    let taken := places.take room
    let s := bump 13 (places.length - taken.length) s
    if taken = [] then s
    else
      let r := enqueue (newEntry (.claimF c.key (BitVec.ofNat 16 base) (lineMask taken) (blockCodes c base)) .xen) s
      if r.2 then setClaims (r.1.xen.claims ++ taken.map (fun p => pendingClaim s.ssv.own c (base + p))) r.1 else r.1

/-- A heard WANT (R130). -/
def judgeWant (k : Key) (base : BitVec 16) (mask : BitVec 32) (codes : List (BitVec 4)) (stations : BitVec 16)
    (s : State) : State :=
  if !baseOk base then countMalformed s
  else
    match slotOf s k with
    | none => s
    | some i =>
      if stations.getLsbD s.ssv.own.val then
        answerWant i base.toNat mask codes (updateChart i (fun c => { c with used := true }) s)
      else s

/-! ## Heard CLAIM (R119, R138 to R140) -/

/-- Whether an entry is an own PENDING entry of a line. -/
def Claim.isPendingOf (key : Key) (index : Nat) (c : Claim) : Bool :=
  c.state == .pending && c.key == key && c.index == index

/-- Whether an entry is an own ACTIVE entry of a line. -/
def Claim.isActiveOf (key : Key) (index : Nat) (c : Claim) : Bool :=
  c.state == .active && c.key == key && c.index == index

/-- Whether an entry is the HEARD entry of a line and claimant. -/
def Claim.isHeardOf (key : Key) (index : Nat) (claimant : Receiver) (c : Claim) : Bool :=
  c.state == .heard && c.key == key && c.index == index && c.claimant == claimant

/-- Whether an entry is an own CLAIM of a key and base (R103). -/
def Entry.isClaimOf (key : Key) (base : Nat) (e : Entry) : Bool :=
  match e.payload with
  | .claimF k b .. => k == key && b.toNat == base
  | _ => false

/-- An own PENDING line gives way to a heard claim unless its code is 3 above the heard one (R139). -/
def yieldPending (key : Key) (base place heardCode : Nat) (s : State) : State :=
  match s.xen.claims.find? (Claim.isPendingOf key (base + place)) with
  | none => s
  | some c =>
    if heardCode + 3 ≤ c.code.getD 0 then s
    else
      let s := dropClaims (Claim.isPendingOf key (base + place)) s
      let s := withdrawEntries (Entry.isClaimOf key base) (.withdrawLines (BitVec.twoPow 32 place)) s
      bump 9 1 s

/-- A HEARD entry is made or renewed (R140). -/
def recordHeard (key : Key) (index : Nat) (r : Receiver) (stamp : Nat) (s : State) : State :=
  let others := s.xen.claims.filter (fun c => !c.isHeardOf key index r)
  if others.length < Config.claimRoom then
    setClaims (others ++ [⟨key, index, r, none, .heard, some (stamp + Config.claimMs)⟩]) s
  else bump 13 1 s

/-- A heard CLAIM is taken for each line of its mask, ascending (R119, R138 to R140). -/
def takeClaimLines (i : SlotNo) (key : Key) (r : Receiver) (base stamp : Nat) (codes : List (BitVec 4)) :
    List Nat → State → State
  | [], s => s
  | p :: rest, s =>
    let code := (codes.getD p 0).toNat
    let s := yieldPending key base p code s
    let s := recordHeard key (base + p) r stamp s
    takeClaimLines i key r base stamp codes rest (setPeerCode i r (base + p) code s)

/-- A heard CLAIM (R138). -/
def judgeClaim (sender : Station) (stamp : Nat) (k : Key) (base : BitVec 16) (mask : BitVec 32) (codes : List (BitVec 4))
    (s : State) : State :=
  match receiverOf sender with
  | none => s
  | some r =>
    if !baseOk base || mask == 0 then countMalformed s
    else
      match slotOf s k with
      | none => s
      | some i =>
        match recordAt s i with
        | none => s
        | some c => takeClaimLines i c.key r base.toNat stamp codes (maskPlaces mask) s

/-! ## Completions of own frames (R86, R106, R107, R141, R146) -/

/-- The completion of an own OPEN (R86). -/
def openCompletion (e : Entry) (key : Key) (delay : BitVec 16) (sent : Bool) (s : State) : State :=
  let s := match e.slot with
    | none => s
    | some i =>
      match recordAt s i with
      | none => s
      | some c =>
        if c.key = key then setOpenReq i (if !sent && c.state == .live then .owed else .nothing) s else s
  if sent then raiseNote 0 (some key) delay s else s

/-- The lines of a SENT CLAIM become ACTIVE and join the build list, ascending (R141). -/
def activateLines (key : Key) (base stamp : Nat) : List Nat → State → State
  | [], s => s
  | p :: rest, s =>
    let isIt := Claim.isPendingOf key (base + p)
    let s :=
      if s.xen.claims.any isIt then
        let claims := s.xen.claims.map (fun c =>
          if isIt c then { c with state := .active, expiry := some (stamp + Config.claimMs) } else c)
        bump 8 1 (setBuild (s.xen.build ++ [⟨key, base + p⟩]) (setClaims claims s))
      else s
    activateLines key base stamp rest s

/-- The completion of an own CLAIM (R141). -/
def claimCompletion (key : Key) (base : BitVec 16) (mask : BitVec 32) (stamp : Nat) (sent : Bool) (s : State) : State :=
  if sent then tryBuild (activateLines key base.toNat stamp (maskPlaces mask) s)
  else dropClaims (fun c => (maskPlaces mask).any (fun p => c.isPendingOf key (base.toNat + p))) s

/-- The completion of an own LINE fragment (R146). -/
def lineCompletion (key : Key) (index : Nat) (count fragment : Nat) (sent : Bool) (s : State) : State :=
  if sent then
    if fragment + 1 = count then
      let s := dropClaims (Claim.isActiveOf key index) s
      match slotOf s key with
      | none => s
      | some i => updateChart i (fun c => { c with used := true }) s
    else s
  else
    withdrawEntries (Entry.isFragmentOf key index) .remove (dropClaims (Claim.isActiveOf key index) s)

/-- The completion goes to the entry's owner (R106). -/
def ownerCompletion (e : Entry) (stamp : Nat) (sent : Bool) (s : State) : State :=
  match e.payload with
  | .openF k _ _ delay => openCompletion e k delay sent s
  | .claimF k base mask _ => claimCompletion k base mask stamp sent s
  | .lineF k index count fragment _ _ _ => lineCompletion k index.toNat count.toNat fragment.toNat sent s
  | _ => s

/-- The lines, by key and shared index, that have fragments among these entries. -/
def fragmentLines (q : List Entry) : List (Key × Nat) :=
  q.filterMap (fun e => match e.payload with | .lineF k i .. => some (k, i.toNat) | _ => none)

/-- A line abandoned in silent mode leaves the claim table and the build list without a count (R149); an attempt would be refused, since the SLC is silent (R104, R143). -/
def abandonLine (l : Key × Nat) (s : State) : State :=
  dropBuildLine l.1 l.2 (dropClaims (Claim.isActiveOf l.1 l.2) s)

/-- The SLC enters silent mode (R107). -/
def enterSilent (s : State) : State :=
  let gone := fragmentLines s.slc.queue
  let s := { s with slc := { s.slc with
    silent := some (s.now + Config.silentMs), damageRun := 0, queue := s.slc.queue.filter (fun e => !e.payload.isLine) } }
  let s := gone.foldl (fun s l => abandonLine l s) s
  raiseNote 12 none (BitVec.ofNat 16 gone.length) s

/-! ## Lapses (R147, R148) -/

/-- An own ACTIVE entry lapses (R147); the builder is at work again only when the head line or a queued fragment has left (R104, R143). -/
def lapseOwn (key : Key) (index : Nat) (s : State) : State :=
  let u := dropBuildLine key index (bump 10 1 (dropClaims (Claim.isActiveOf key index) s))
  retryBuild s (setQueue (requestEntries (Entry.isFragmentOf key index) .remove u.slc.queue) u)

/-! ## Reassembly (R150 to R153) -/

/-- Whether an entry is the reception of a sender's line (R151). -/
def Assembly.isOf (r : Receiver) (key : Key) (index : Nat) (a : Assembly) : Bool :=
  a.sender == r && a.key == key && a.index == index

/-- Removes a reception. -/
def dropAssembly (r : Receiver) (key : Key) (index : Nat) (s : State) : State :=
  setAssemblies (s.xen.assemblies.filter (fun a => !a.isOf r key index)) s

/-- A reassembly discard is counted in counter 5 (R176). -/
def countDiscard (s : State) : State := bump 5 1 s

/-- A line completes: its HEARD entry and reception go, and a sound copy is offered to the merge rule (R52, R120, R153). -/
def completeLine (i : SlotNo) (r : Receiver) (key : Key) (index q u : Nat) (bytes : List Byte) (s : State) : State :=
  match recordAt s i with
  | none => s
  | some c =>
    let s := dropClaims (Claim.isHeardOf c.key index r) s
    let s := dropAssembly r key index s
    let pixels := decodeRuns bytes
    if pixels.length ≠ Config.linePixels then countDiscard s
    else if 100 < q ∨ 1200 < u then countDiscard s
    else setPeerCode i r index (qualityCode q) (mergeOffer i key index ⟨pixels, q, u, r, .peerCopy⟩ s)

/-- The place of the reception with the oldest start, the first made of two (R151). -/
def oldestAssembly (as : List Assembly) : Option Nat :=
  match as.map (·.start) with
  | [] => none
  | a :: rest => (as.findIdx? (fun x => x.start == rest.foldl min a))

/-- A new reception; a full table first discards its oldest (R151). -/
def addAssembly (a : Assembly) (s : State) : State :=
  if s.xen.assemblies.length < Config.assemblyRoom then setAssemblies (s.xen.assemblies ++ [a]) s
  else
    match oldestAssembly s.xen.assemblies with
    | none => setAssemblies (s.xen.assemblies ++ [a]) s
    | some n => setAssemblies (s.xen.assemblies.eraseIdx n ++ [a]) (countDiscard s)

/-- A fragment of index 0 (R151). -/
def firstFragment (i : SlotNo) (a : Assembly) (s : State) : State :=
  if a.count = 1 then completeLine i a.sender a.key a.index a.q a.u a.bytes s
  else if s.xen.assemblies.any (·.isOf a.sender a.key a.index) then
    setAssemblies (s.xen.assemblies.map (fun x => if x.isOf a.sender a.key a.index then a else x)) s
  else addAssembly a s

/-- A fragment of index 1 or more (R152). -/
def laterFragment (i : SlotNo) (f : Assembly) (fragment : Nat) (s : State) : State :=
  match s.xen.assemblies.find? (·.isOf f.sender f.key f.index) with
  | none => countDiscard s
  | some a =>
    if fragment = a.next ∧ f.count = a.count ∧ f.q = a.q ∧ f.u = a.u then
      let bytes := a.bytes ++ f.bytes
      if a.next + 1 = a.count then completeLine i f.sender f.key f.index a.q a.u bytes s
      else
        setAssemblies (s.xen.assemblies.map (fun x =>
          if x.isOf f.sender f.key f.index then { x with next := a.next + 1, bytes := bytes } else x)) s
    else countDiscard (dropAssembly f.sender f.key f.index s)

/-- A heard LINE fragment (R150). -/
def judgeLine (sender : Station) (stamp : Nat) (k : Key) (index : BitVec 16) (count fragment : BitVec 4) (q : Byte)
    (u : BitVec 16) (runs : List Byte) (s : State) : State :=
  match receiverOf sender with
  | none => s
  | some r =>
    if count.toNat < 1 ∨ 5 < count.toNat ∨ count.toNat ≤ fragment.toNat ∨ Config.chartLines ≤ index.toNat then
      countMalformed s
    else
      match slotOf s k with
      | none => s
      | some i =>
        let a : Assembly := ⟨r, k, index.toNat, count.toNat, 1, q.toNat, u.toNat, runs, stamp⟩
        if fragment.toNat = 0 then firstFragment i a s else laterFragment i a fragment.toNat s

end Sys2Proof.Machine
end

