-- ==== Sys2Proof/Machine/Station.lean ====
section
/-! DEFINITION. Station services (chapters 9 and 10): the peer table, ROSTER, ASK and DESCRIBE, the link restart, REPORT. -/

namespace Sys2Proof.Machine

def setPeer (st : Station) (p : Option Peer) (s : State) : State :=
  { s with ssv := { s.ssv with peers := s.ssv.peers.set st p } }

/-- An intact frame marks its sender present; a receiver's passage from absent sets the dirty flags (R121, R156). -/
def markPresent (sender : Station) (stamp : Nat) (s : State) : State :=
  match s.ssv.peers[sender] with
  | some p => setPeer sender (some { p with lastHeard := stamp }) s
  | none =>
    let s := setPeer sender (some ⟨stamp, none⟩) s
    if sender.val < 8 then setAllDirty s else s

/-- One column of every slot's view is set to all codes 0 (R121). -/
def clearColumn (r : Receiver) (s : State) : State :=
  { s with xen := { s.xen with views := s.xen.views.map (fun v => v.set r []) } }

/-- A station is declared absent (R158). -/
def declareAbsent (st : Station) (s : State) : State :=
  let s := setPeer st none s
  let s := match receiverOf st with
    | some r => clearColumn r s
    | none => s
  raiseNote 14 none (BitVec.ofNat 16 st.val) s

/-- The kind and tag a ROSTER may carry from this sender (R157, R181). -/
def rosterFits (sender : Station) (kind : StationKind) (tag : Nat) : Bool :=
  match kind with
  | .receiver => decide (sender.val < 8) && decide (1 ≤ tag) && decide (tag ≤ 15)
  | .viewer => decide (8 ≤ sender.val) && decide (tag ≤ 15)

/-- A heard ROSTER (R157). -/
def judgeRoster (sender : Station) (kind tag : Byte) (s : State) : State :=
  match kindOfByte kind with
  | none => countMalformed s
  | some k =>
    if rosterFits sender k tag.toNat then
      match s.ssv.peers[sender] with
      | some p => setPeer sender (some { p with roster := some (k, tag.toNat) }) s
      | none => s
    else countMalformed s

/-! ## ROSTER (R160, R161) -/

/-- The number of FREE slots (R78). -/
def freeSlots (s : State) : Nat := allSlots.countP (fun i => (recordAt s i).isNone)

/-- The ROSTER of the values now held (R160). -/
def rosterFrame (s : State) : Payload :=
  .rosterF 1 (BitVec.ofNat 8 s.ssv.boot.tag) (BitVec.ofNat 8 (freeSlots s)) (BitVec.ofNat 8 (s.cst.free.length / 64))
    (BitVec.ofNat 8 (statusCode s.ssv.status)) s.ssv.version (BitVec.ofInt 8 s.lcu.offset)
    (BitVec.ofNat 8 (tuningCode s.lcu.status))

/-- Queues a ROSTER (R161). -/
def queueRoster (s : State) : State := (enqueue (newEntry (rosterFrame s) .ssv) s).1

/-! ## ASK and DESCRIBE (R162 to R164) -/

/-- The slots that are not FREE, ascending: the station's chart numbering (R162). -/
def chartList (s : State) : List SlotNo := allSlots.filter (fun i => (recordAt s i).isSome)

/-- Holders: own station and the columns with a nonzero code (R163). -/
def holders (s : State) (i : SlotNo) : Nat :=
  1 + (otherReceivers s.ssv.own).countP (fun r => ((s.xen.views[i])[r]).any (fun e => e.2 != 0))

/-- The state byte: slot state in the high nibble, close reason or 0 in the low one (R181). -/
def stateByte (c : Chart) : Byte :=
  BitVec.ofNat 4 (chartStateCode c.state) ++ BitVec.ofNat 4 ((c.closeReason.map reasonCode).getD 0)

/-- The descriptor of a slot (R163). -/
def descriptorOf (s : State) (i : SlotNo) (c : Chart) : Descriptor where
  key := c.key
  otherKey := keyField c.otherKey
  tag := BitVec.ofNat 8 c.tag
  rate := BitVec.ofNat 8 (rateCode c.rate)
  state := stateByte c
  length := BitVec.ofNat 16 c.length
  heldCount := BitVec.ofNat 16 c.heldCount
  poorCount := BitVec.ofNat 16 c.poorCount
  holders := BitVec.ofNat 8 (holders s i)
  age := BitVec.ofNat 8 (min 255 ((s.now - c.opened) / 60000))

/-- A heard ASK (R162 to R164). -/
def judgeAsk (sender : Station) (target k : Byte) (s : State) : State :=
  if target.toNat ≠ s.ssv.own.val then s
  else
    let requester : Byte := BitVec.ofNat 8 sender.val
    match (chartList s)[k.toNat]? with
    | none => (enqueue (newEntry (.describeNullF requester k (BitVec.ofNat 8 (chartList s).length)) .ssv) s).1
    | some i =>
      match recordAt s i with
      | none => s
      | some c =>
        (enqueue (newEntry (.describeF requester k (descriptorOf s i c)) .ssv)
          (updateChart i (fun c => { c with used := true }) s)).1

/-! ## Link restart (R97, R116, R133, R155, R166) -/

/-- The SLC's part: the queue emptied, silent ended, the damage run 0 (R116). -/
def flushQueue (s : State) : State := { s with slc := { s.slc with queue := [], silent := none, damageRun := 0 } }

/-- An open request after a link restart: QUEUED becomes OWED if the slot is LIVE, NONE otherwise (R97). -/
def restartRequest (s : State) (i : SlotNo) : OpenRequest :=
  if s.xen.openReq[i] = .queued then
    match recordAt s i with
    | some c => if c.state = .live then .owed else .nothing
    | none => .nothing
  else s.xen.openReq[i]

/-- The XEN's part: views all 0, open requests settled, claims, build list and receptions emptied (R97, R133, R155). -/
def clearExchange (s : State) : State :=
  { s with xen := { s.xen with
      views := Vector.replicate 4 .empty
      openReq := Vector.ofFn (restartRequest s)
      claims := []
      build := []
      assemblies := [] } }

/-- A link restart on a RESTART of this sender and stamp (R166). -/
def linkRestart (sender : Station) (stamp : Nat) (s : State) : State :=
  let s := setAllDirty (clearExchange (flushQueue s))
  let s := { s with ssv := { s.ssv with peers := Vector.replicate 16 none } }
  queueRoster (markPresent sender stamp s)

/-- A heard RESTART (R165). -/
def judgeRestart (sender : Station) (stamp : Nat) (mask : BitVec 16) (s : State) : State :=
  if mask.getLsbD s.ssv.own.val then linkRestart sender stamp s else s

/-! ## REPORT (R177) -/

/-- The REPORT of the sixteen counters as they stand (R177, R181). -/
def reportFrame (s : State) : Payload := .reportF (s.ssv.counters.toList.map (BitVec.ofNat 16))

/-- A minute expiry: counters into a REPORT, cleared, REPORT queued (R177). -/
def minuteReport (s : State) : State :=
  let p := reportFrame s
  (enqueue (newEntry p .ssv) { s with ssv := { s.ssv with counters := Vector.replicate 16 0 } }).1

end Sys2Proof.Machine
end

