-- ==== Sys2Proof/Machine/Reception.lean ====
section
/-! DEFINITION. Reception (R98, R109 to R113) and the meanings of the heard frames: FRAME_DAMAGED, FRAME_MALFORMED, CLASH, and OPEN_HEARD to DESCRIBE_NOTE_REPORT_HEARD. -/

namespace Sys2Proof.Machine

/-- Whether a frame on the line is read: the part runs and its line state is not UNSYNCED (R98, R115). -/
def readsLine (s : State) : Bool := s.phase == .running && s.slc.lineState != .unsynced

/-- Whether the frame that ends is another attachment's, and is read: this station has no part in it, so it is not its echo (R109). -/
def hearsFrame (s : State) : Bool := readsLine s && s.slc.role == .none

/-- The line after the last bit read of a frame: BUSY until it turns IDLE, no frame being read (R98). -/
def frameEnded (recessive : Nat) (s : State) : State :=
  { s with slc := { s.slc with lineState := .busy, rx := none, recessiveRun := min 11 recessive } }

/-- A clash (R112): counted, NOTE class 15 with kind × 4 + priority. -/
def takeClash (priority : BitVec 2) (kind : BitVec 5) (s : State) : State :=
  raiseNote 15 none (BitVec.ofNat 16 (kind.toNat * 4 + priority.toNat)) (bump 5 1 s)

/-- A malformed frame is counted; its sender is marked present (R110, R111). -/
def takeMalformed (sender : Station) (s : State) : State := bump 5 1 (markPresent sender s.now s)

/-- The slot a frame that names a chart reaches has its last-reference time set (R80, R111). -/
def refreshOf (p : Payload) (stamp : Nat) (s : State) : State :=
  match p.chartKey with
  | some k => refreshReference k stamp s
  | none => s

/-- What the blocks do with a well-formed frame of each kind (R111). -/
def dispatch (sender : Station) (stamp : Nat) (p : Payload) (s : State) : State :=
  match p with
  | .openF k tag rate delay => judgeOpen sender stamp k tag rate delay s
  | .closeF k length reason => judgeClose k length reason s
  | .dropF k => judgeDrop k s
  | .tallyF k base codes => judgeTally sender k base codes s
  | .wantF k base mask codes stations => judgeWant k base mask codes stations s
  | .claimF k base mask codes => judgeClaim sender stamp k base mask codes s
  | .lineF k index count fragment q u runs => judgeLine sender stamp k index count fragment q u runs s
  | .restartF mask => judgeRestart sender stamp mask s
  | .askF target k => judgeAsk sender target k s
  | .rosterF kind tag .. => judgeRoster sender kind tag s
  | .describeNullF .. => s
  | .describeF .. => s
  | .noteF .. => s
  | .reportF .. => s

/-- A well-formed frame is reported to the SSV, counted, refreshes the slot it reaches and is dispatched (R111). -/
def takeFrame (sender : Station) (p : Payload) (s : State) : State :=
  let stamp := s.now
  dispatch sender stamp p (refreshOf p stamp (bump 4 1 (markPresent sender stamp s)))

/-- What the blocks do at the fate of a frame (R109 to R112). -/
def takeFate (f : Fate) (s : State) : State :=
  match f with
  | .damaged => bump 5 1 s
  | .clash priority kind => takeClash priority kind s
  | .malformed sender => takeMalformed sender s
  | .heard sender p => takeFrame sender p s

/-- The SLC is done with a frame of another attachment at station time `t`: the bits read are judged and the frame is taken, when its fate is of the sort the command names (R109; notes/assumptions/13.md, 26.md). -/
def frameEvent (named : Fate → Bool) (t : Nat) (bits : List Bool) (s : State) : State :=
  let s := advance t s
  if hearsFrame s then
    match fateOf s.ssv.own bits with
    | some f => if named f then takeFate f (frameEnded (recessiveAfter bits) s) else s
    | none => s
  else s

/-! ## The meanings -/

/-- FRAME_DAMAGED (R109): discarded and counted; the line stays BUSY until the recessive run reaches 11 (R98). -/
def execFrameDamaged (t : Nat) (bits : List Bool) (s : State) : Host.Outcome State Fault Refusal :=
  .next (frameEvent (· == .damaged) t bits s)

/-- FRAME_MALFORMED (R110, R111). -/
def execFrameMalformed (t : Nat) (priority : BitVec 2) (sender : Station) (kind : BitVec 5) (tail : List Bool) (s : State) :
    Host.Outcome State Fault Refusal :=
  .next (frameEvent Fate.isMalformed t (fieldBits (arbitrationField priority sender kind) ++ tail) s)

/-- CLASH (R112). -/
def execClash (t : Nat) (priority : BitVec 2) (kind : BitVec 5) (tail : List Bool) (s : State) :
    Host.Outcome State Fault Refusal :=
  .next (frameEvent Fate.isClash t (fieldBits (arbitrationField priority (stationOf s.ssv.own) kind) ++ tail) s)

/-- A frame of a kind is heard: the row's name gives priority and kind, the operands sender and further bits (R111). -/
def hearFrame (t : Nat) (k : Kind) (sender : Station) (tail : List Bool) (s : State) : State :=
  frameEvent (Fate.isHeard k) t (fieldBits (kindField k sender) ++ tail) s

/-- OPEN_HEARD (R88). -/
def execOpenHeard (t : Nat) (sender : Station) (tail : List Bool) (s : State) : Host.Outcome State Fault Refusal :=
  .next (hearFrame t .openK sender tail s)

/-- CLOSE_HEARD (R94). -/
def execCloseHeard (t : Nat) (sender : Station) (tail : List Bool) (s : State) : Host.Outcome State Fault Refusal :=
  .next (hearFrame t .closeK sender tail s)

/-- DROP_HEARD (R76). -/
def execDropHeard (t : Nat) (sender : Station) (tail : List Bool) (s : State) : Host.Outcome State Fault Refusal :=
  .next (hearFrame t .dropK sender tail s)

/-- TALLY_HEARD (R118). -/
def execTallyHeard (t : Nat) (sender : Station) (tail : List Bool) (s : State) : Host.Outcome State Fault Refusal :=
  .next (hearFrame t .tallyK sender tail s)

/-- WANT_HEARD (R130). -/
def execWantHeard (t : Nat) (sender : Station) (tail : List Bool) (s : State) : Host.Outcome State Fault Refusal :=
  .next (hearFrame t .wantK sender tail s)

/-- CLAIM_HEARD (R138). -/
def execClaimHeard (t : Nat) (sender : Station) (tail : List Bool) (s : State) : Host.Outcome State Fault Refusal :=
  .next (hearFrame t .claimK sender tail s)

/-- LINE_HEARD (R150). -/
def execLineHeard (t : Nat) (sender : Station) (tail : List Bool) (s : State) : Host.Outcome State Fault Refusal :=
  .next (hearFrame t .lineK sender tail s)

/-- RESTART_HEARD (R165). -/
def execRestartHeard (t : Nat) (sender : Station) (tail : List Bool) (s : State) : Host.Outcome State Fault Refusal :=
  .next (hearFrame t .restartK sender tail s)

/-- ASK_HEARD (R162). -/
def execAskHeard (t : Nat) (sender : Station) (tail : List Bool) (s : State) : Host.Outcome State Fault Refusal :=
  .next (hearFrame t .askK sender tail s)

/-- ROSTER_HEARD (R157). -/
def execRosterHeard (t : Nat) (sender : Station) (tail : List Bool) (s : State) : Host.Outcome State Fault Refusal :=
  .next (hearFrame t .rosterK sender tail s)

/-- DESCRIBE_NOTE_REPORT_HEARD (R111). -/
def execInfoHeard (t : Nat) (kind : InfoKind) (sender : Station) (tail : List Bool) (s : State) :
    Host.Outcome State Fault Refusal :=
  .next (hearFrame t (infoKind kind) sender tail s)

end Sys2Proof.Machine
end

