-- ==== Sys2Proof/Machine/ShareLine.lean ====
section
/-! DEFINITION. The meanings of the share line's own commands: LINE_IDLE, LINE_BUSY, FRAME_START, ARBITRATION_LOST, ARBITRATION_WON, SEND_COMPLETION, SILENT_END. -/

namespace Sys2Proof.Machine

def setSlc (l : Slc) (s : State) : State := { s with slc := l }

/-- The arbitration field this station drives for an entry (R99, R179). -/
def entryArbitration (own : Receiver) (e : Entry) : BitVec 11 :=
  arbitrationField (kindClass e.payload.kind) (stationOf own) (kindCode e.payload.kind)

/-- The bits this station drives for an entry between start bit and end bits (R99). -/
def entryBits (own : Receiver) (e : Entry) : List Bool := drivenBits (entryArbitration own e) e.payload.bytes

/-! ## Line state (R98) -/

/-- LINE_IDLE (R98): eleven recessive bits, or four bit times after an end; while a frame is being read the line does not turn IDLE. -/
def execLineIdle (t : Nat) (s : State) : Host.Outcome State Fault Refusal :=
  let s := advance t s
  .next (
    if s.phase = .running ∧ s.slc.rx = none ∧ s.slc.role = .none ∧ s.slc.lineState ≠ .idle then
      setSlc { s.slc with lineState := .idle, recessiveRun := 11 } s
    else s)

/-- LINE_BUSY (R98): a dominant bit, which returns the recessive run to 0; on an IDLE line, or in BUSY when no frame is being read, it is a start bit. -/
def execLineBusy (t : Nat) (s : State) : Host.Outcome State Fault Refusal :=
  let s := advance t s
  .next (
    if s.phase ≠ .running then s
    else if s.slc.rx.isSome ∨ s.slc.lineState = .unsynced then setSlc { s.slc with recessiveRun := 0 } s
    else setSlc { s.slc with lineState := .busy, recessiveRun := 0, rx := some [] } s)

/-! ## Arbitration (R101, R102, R114) -/

/-- Whether a frame may be started now: IDLE, not silent, no part in a frame (R101, R108). -/
def mayStart (s : State) : Bool :=
  s.phase == .running && s.slc.lineState == .idle && s.slc.silent == none && s.slc.role == .none

/-- The offered frame becomes the frame on the wire; SLE is raised and the start bit driven (R101). -/
def startFrame (place : Nat) (s : State) : State :=
  setSlc { s.slc with
    lineState := .busy, recessiveRun := 0, rx := some [], role := .contending, sle := true, sltRecessive := false,
    queue := s.slc.queue.modify place (fun e => { e with onWire := true }) } s

/-- FRAME_START (R101). -/
def execFrameStart (t : Nat) (s : State) : Host.Outcome State Fault Refusal :=
  let s := advance t s
  .next (
    if mayStart s then
      match offeredPlace s.slc.queue with
      | some n => startFrame n s
      | none => s
    else s)

/-- The frame on the wire leaves it at its loss, and the requests it kept are applied (R101, R105). -/
def Entry.lose (e : Entry) : Option Entry := Entry.applyAll e.waiting { e with onWire := false, waiting := [] }

/-- The queue after a loss (R101, R105). -/
def loseQueue (q : List Entry) : List Entry := q.filterMap (fun e => if e.onWire then e.lose else some e)

/-- The send is given up: driving stops, SLE low, no part in the frame; `bits` have been read of it (R101, R102). -/
def stopDriving (bits : List Bool) (l : Slc) : Slc :=
  { l with role := .none, sle := false, sltRecessive := true, rx := some bits, recessiveRun := recessiveAfter bits }

/-- Arbitration is lost at a bit (R101): the winner's frame is read on with the bits read so far. -/
def loseArbitration (e : Entry) (bit : Nat) (s : State) : State :=
  let q := loseQueue s.slc.queue
  let left := decide (q.length < s.slc.queue.length)
  let bits := (fieldBits (entryArbitration s.ssv.own e)).take bit ++ [false]
  let s := setSlc { stopDriving bits s.slc with queue := q } s
  if left then tryBuild s else s

/-- ARBITRATION_LOST (R101): at a bit driven recessive. -/
def execArbitrationLost (t : Nat) (bit : Nat) (s : State) : Host.Outcome State Fault Refusal :=
  let s := advance t s
  .next (
    match s.slc.role, wireEntry s.slc.queue with
    | .contending, some e =>
      if (fieldBits (entryArbitration s.ssv.own e))[bit]? = some true then loseArbitration e bit s else s
    | _, _ => s)

/-- The delay of an OPEN that wins at `clock` µs: E − T in ms, at most 65,535 (R85, R114). -/
def openDelay (clock transition : Nat) : Nat := min 65535 ((clock + Config.openTailUs) / 1000 - transition)

/-- An OPEN on the wire has its delay written at the win (R114). -/
def Entry.win (clock : Nat) (e : Entry) : Entry :=
  if e.onWire then
    match e.payload with
    | .openF k tag rate _ => { e with payload := .openF k tag rate (BitVec.ofNat 16 (openDelay clock e.transition)) }
    | _ => e
  else e

/-- ARBITRATION_WON (R102). -/
def execArbitrationWon (t : Nat) (s : State) : Host.Outcome State Fault Refusal :=
  let s := advance t s
  .next (
    match s.slc.role, wireEntry s.slc.queue with
    | .contending, some e =>
      let bits := fieldBits (entryArbitration s.ssv.own e)
      setSlc { s.slc with
        role := .sending, rx := some bits, recessiveRun := recessiveAfter bits, sltRecessive := bits.getLastD true,
        queue := s.slc.queue.map (Entry.win s.clock) } s
    | _, _ => s)

/-! ## Completions (R106, R107) -/

/-- Whether a bit error can stand at this wire bit: in arbitration at a bit driven dominant, after the win anywhere up to the check sequence (R101, R102). -/
def errorPossible (role : TxRole) (driven : List Bool) (bit : Nat) : Bool :=
  match role with
  | .none => false
  | .contending => decide (bit < 11) && driven[bit]? == some false
  | .sending => decide (11 ≤ bit) && decide (bit < driven.length)

/-- The bits read back of a send up to its completion (R102, R106). -/
def echoBits (driven : List Bool) : SendOutcome → List Bool
  | .sent => driven ++ endBits
  | .bitError bit => driven.take bit ++ [!(driven.getD bit false)]
  | .damagedEcho ends => driven ++ ends

/-- Whether this outcome can come of the send in progress; the echo is judged as any frame is (R100, R106). -/
def outcomePossible (role : TxRole) (driven : List Bool) (outcome : SendOutcome) : Bool :=
  match outcome with
  | .sent => role == .sending && (judgeBits (echoBits driven outcome)).isIntact
  | .damagedEcho _ => role == .sending && judgeBits (echoBits driven outcome) == .damaged
  | .bitError bit => errorPossible role driven bit

/-- The line after the send: read to its end, or given up at a bit error and read on as a receiver (R98, R102).
A damaged echo is a dominant level read at a recessive end bit, a bit error too, and the frame read on is found damaged at that bit (R99, R102; notes/assumptions/34.md). -/
def lineAfterSend (own : Receiver) (e : Entry) (outcome : SendOutcome) (s : State) : State :=
  let read := echoBits (entryBits own e) outcome
  match outcome with
  | .sent => frameEnded (recessiveAfter read) s
  | .bitError _ => setSlc (stopDriving read s.slc) s
  | .damagedEcho _ => frameEnded (recessiveAfter read) (setSlc (stopDriving read s.slc) s)

/-- The SLC's counts at a completion (R106, R109). -/
def countCompletion (outcome : SendOutcome) (s : State) : State :=
  match outcome with
  | .sent => bump 6 1 s
  | .bitError _ => bump 7 1 s
  | .damagedEcho _ => bump 5 1 (bump 7 1 s)

/-- A completion (R106): counts and damage run, the entry leaves, room report, the owner's effect; then silent mode at the sixteenth DAMAGED in a row (R107).
SLE is low and the role NONE behind every outcome: after the last end bit of a send without bit error, and at a bit error (R102). -/
def completeSend (e : Entry) (outcome : SendOutcome) (s : State) : State :=
  let sent := decide (outcome = .sent)
  let s := countCompletion outcome (lineAfterSend s.ssv.own e outcome s)
  let s := setSlc { s.slc with
    role := .none, sle := false, sltRecessive := true,
    damageRun := if sent then 0 else s.slc.damageRun + 1,
    queue := s.slc.queue.filter (fun e => !e.onWire) } s
  let s := ownerCompletion e s.now sent (tryBuild s)
  if Config.damageLimit ≤ s.slc.damageRun then enterSilent s else s

/-- SEND_COMPLETION (R106). -/
def execSendCompletion (t : Nat) (outcome : SendOutcome) (s : State) : Host.Outcome State Fault Refusal :=
  let s := advance t s
  .next (
    match wireEntry s.slc.queue with
    | some e => if outcomePossible s.slc.role (entryBits s.ssv.own e) outcome then completeSend e outcome s else s
    | none => s)

/-- SILENT_END (R108): silent becomes no, NOTE class 13, room report. -/
def execSilentEnd (t : Nat) (s : State) : Host.Outcome State Fault Refusal :=
  let s := advance t s
  .next (
    if reached s.slc.silent s then tryBuild (raiseNote 13 none 0 (setSlc { s.slc with silent := none } s)) else s)

end Sys2Proof.Machine
end

