-- ==== Sys2Proof/Machine/Timers.lean ====
section
/-! DEFINITION. The meanings of the timers' commands: TALLY_EXPIRY, WANT_TIMER_EXPIRY, SWEEP_DEADLINE, SILENCE_CLOSE, CLAIM_LAPSE, HEARD_LAPSE, REASSEMBLY_TIMEOUT, PEER_ABSENT, ROSTER_EXPIRY, MINUTE_EXPIRY.  A command before its time finds nothing expired. -/

namespace Sys2Proof.Machine

/-- TALLY_EXPIRY (R122). -/
def execTallyExpiry (t : Nat) (s : State) : Host.Outcome State Fault Refusal :=
  let s := advance t s
  .next (
    if isDue s.xen.tallyDue s then
      tallyRound { s with xen := { s.xen with tallyDue := s.xen.tallyDue + Config.tallyMs } }
    else s)

/-- An owed OPEN of a LIVE slot goes to the queue again (R87). -/
def resendOpen (i : SlotNo) (s : State) : State :=
  match recordAt s i with
  | none => s
  | some c => if c.state = .live ∧ s.xen.openReq[i] = .owed then queueOpen .xen i s else s

/-- A slot's want timer expires: restarted, an owed OPEN sent again, the want round run (R87, R124). -/
def wantExpiry (i : SlotNo) (due : Nat) (s : State) : State :=
  wantRound i (resendOpen i (updateChart i (fun c => { c with wantDue := some (due + Config.wantMs) }) s))

/-- WANT_TIMER_EXPIRY (R124): a HELD slot has no want timer. -/
def execWantTimerExpiry (t : Nat) (slot : SlotNo) (s : State) : Host.Outcome State Fault Refusal :=
  let s := advance t s
  .next (
    match (recordAt s slot).bind (·.wantDue) with
    | some due => if isDue due s then wantExpiry slot due s else s
    | none => s)

/-- The sweep deadline of a slot in SWEEP (R63). -/
def sweepOver (i : SlotNo) (s : State) : State :=
  match s.ssv.boot.sweepEnd with
  | .stop => enterHeld i 2 s
  | .keep => updateChart i (fun c => { c with sweepDeadline := none }) s

/-- SWEEP_DEADLINE (R63). -/
def execSweepDeadline (t : Nat) (slot : SlotNo) (s : State) : Host.Outcome State Fault Refusal :=
  let s := advance t s
  .next (
    match recordAt s slot with
    | some c => if c.state = .sweep ∧ reached c.sweepDeadline s = true then sweepOver slot s else s
    | none => s)

/-- Whether a slot is an unbound LIVE slot with no reference for 120,000 ms (R95). -/
def silenceOver (c : Chart) (s : State) : Bool :=
  c.state == .live && !c.bound && isDue (c.lastReference + Config.silenceMs) s

/-- SILENCE_CLOSE (R95). -/
def execSilenceClose (t : Nat) (slot : SlotNo) (s : State) : Host.Outcome State Fault Refusal :=
  let s := advance t s
  .next (
    match recordAt s slot with
    | some c => if silenceOver c s then closeSlot slot .silence s else s
    | none => s)

/-- CLAIM_LAPSE (R147). -/
def execClaimLapse (t : Nat) (key : Key) (index : Nat) (s : State) : Host.Outcome State Fault Refusal :=
  let s := advance t s
  .next (
    match s.xen.claims.find? (Claim.isActiveOf key index) with
    | some c => if reached c.expiry s then lapseOwn key index s else s
    | none => s)

/-- HEARD_LAPSE (R148). -/
def execHeardLapse (t : Nat) (key : Key) (index : Nat) (claimant : Receiver) (s : State) :
    Host.Outcome State Fault Refusal :=
  let s := advance t s
  .next (
    match s.xen.claims.find? (Claim.isHeardOf key index claimant) with
    | some c => if reached c.expiry s then bump 10 1 (dropClaims (Claim.isHeardOf key index claimant) s) else s
    | none => s)

/-- REASSEMBLY_TIMEOUT (R152). -/
def execReassemblyTimeout (t : Nat) (sender : Receiver) (key : Key) (index : Nat) (s : State) :
    Host.Outcome State Fault Refusal :=
  let s := advance t s
  .next (
    match s.xen.assemblies.find? (·.isOf sender key index) with
    | some a => if isDue (a.start + Config.assemblyMs) s then countDiscard (dropAssembly sender key index s) else s
    | none => s)

/-- PEER_ABSENT (R158). -/
def execPeerAbsent (t : Nat) (station : Station) (s : State) : Host.Outcome State Fault Refusal :=
  let s := advance t s
  .next (
    match s.ssv.peers[station] with
    | some p => if isDue (p.lastHeard + Config.absentMs) s then declareAbsent station s else s
    | none => s)

/-- ROSTER_EXPIRY (R160). -/
def execRosterExpiry (t : Nat) (s : State) : Host.Outcome State Fault Refusal :=
  let s := advance t s
  .next (
    if isDue s.ssv.rosterDue s then
      queueRoster { s with ssv := { s.ssv with rosterDue := s.ssv.rosterDue + Config.rosterMs } }
    else s)

/-- MINUTE_EXPIRY (R177). -/
def execMinuteExpiry (t : Nat) (s : State) : Host.Outcome State Fault Refusal :=
  let s := advance t s
  .next (
    if isDue s.ssv.minuteDue s then
      minuteReport { s with ssv := { s.ssv with minuteDue := s.ssv.minuteDue + Config.minuteMs } }
    else s)

end Sys2Proof.Machine
end

