-- ==== Sys2Proof/Machine/Clock.lean ====
section
/-! DEFINITION. What the passing of time brings when no command waits: in boot the next step of the boot read; after it the next millisecond, and the events the part's own timers then reach (notes/assumptions/4.md, 22.md). -/

namespace Sys2Proof.Machine

/-- The want, sweep and silence events due on a slot. -/
def slotEvents (s : State) (i : SlotNo) : List Instr :=
  match recordAt s i with
  | none => []
  | some c =>
    (if c.state = .sweep ∧ reached c.sweepDeadline s = true then [.sweepDeadline s.clock i] else []) ++
      (if silenceOver c s then [.silenceClose s.clock i] else []) ++
      (if reached c.wantDue s then [.wantTimerExpiry s.clock i] else [])

/-- The lapse of a claim entry whose expiry is reached. -/
def claimEvent (s : State) (c : Claim) : Option Instr :=
  if reached c.expiry s then
    match c.state with
    | .pending => none
    | .active => some (.claimLapse s.clock c.key c.index)
    | .heard => some (.heardLapse s.clock c.key c.index c.claimant)
  else none

/-- The absence of a station unheard for 150,000 ms. -/
def peerEvent (s : State) (st : Station) : Option Instr :=
  match s.ssv.peers[st] with
  | some p => if isDue (p.lastHeard + Config.absentMs) s then some (.peerAbsent s.clock st) else none
  | none => none

/-- The events the part's own timers have reached, and the start of a frame it may start. -/
def dueEvents (s : State) : List Instr :=
  (if reached s.lcu.gainDownEnd s then [.gainDownEnd s.clock] else []) ++
    (if phasingOver s then [.phasingTimeout s.clock] else []) ++
    (if reached s.slc.silent s then [.silentEnd s.clock] else []) ++
    allSlots.flatMap (slotEvents s) ++
    s.xen.claims.filterMap (claimEvent s) ++
    s.xen.assemblies.filterMap (fun a =>
      if isDue (a.start + Config.assemblyMs) s then some (.reassemblyTimeout s.clock a.sender a.key a.index) else none) ++
    allStations.filterMap (peerEvent s) ++
    (if isDue s.xen.tallyDue s then [.tallyExpiry s.clock] else []) ++
    (if isDue s.ssv.rosterDue s then [.rosterExpiry s.clock] else []) ++
    (if isDue s.ssv.minuteDue s then [.minuteExpiry s.clock] else []) ++
    (if mayStart s && (offeredPlace s.slc.queue).isSome then [.frameStart s.clock] else [])

/-- One idle step: in reset nothing moves; in boot the boot read takes a step; after it station time moves to the next millisecond and the events then due wait in the queue. -/
def idleStep (s : State) : State :=
  match s.phase with
  | .inReset => s
  | .boot => bootStep s
  | .running =>
    let s := { s with clock := (s.clock / 1000 + 1) * 1000 }
    { s with pending := dueEvents s }

end Sys2Proof.Machine
end

