-- ==== Sys2Proof/Machine/Dispatch.lean ====
section
/-! DEFINITION. exec: the meaning of every command, one arm each. -/

namespace Sys2Proof.Machine

def exec (i : Instr) (s : State) : Host.Outcome State Fault Refusal :=
  match i with
  | .reset pin => Sys2Proof.Machine.execReset pin s
  | .endOfBoot steps => Sys2Proof.Machine.execEndOfBoot steps s
  | .levelWord t word => Sys2Proof.Machine.execLevelWord t word s
  | .wordDiscard t => Sys2Proof.Machine.execWordDiscard t s
  | .gainDownEnd t => Sys2Proof.Machine.execGainDownEnd t s
  | .phasingTimeout t => Sys2Proof.Machine.execPhasingTimeout t s
  | .lineIdle t => Sys2Proof.Machine.execLineIdle t s
  | .frameStart t => Sys2Proof.Machine.execFrameStart t s
  | .arbitrationLost t bit => Sys2Proof.Machine.execArbitrationLost t bit s
  | .arbitrationWon t => Sys2Proof.Machine.execArbitrationWon t s
  | .sendCompletion t outcome => Sys2Proof.Machine.execSendCompletion t outcome s
  | .silentEnd t => Sys2Proof.Machine.execSilentEnd t s
  | .frameDamaged t bits => Sys2Proof.Machine.execFrameDamaged t bits s
  | .frameMalformed t priority sender kind tail => Sys2Proof.Machine.execFrameMalformed t priority sender kind tail s
  | .clash t priority kind tail => Sys2Proof.Machine.execClash t priority kind tail s
  | .openHeard t sender tail => Sys2Proof.Machine.execOpenHeard t sender tail s
  | .closeHeard t sender tail => Sys2Proof.Machine.execCloseHeard t sender tail s
  | .dropHeard t sender tail => Sys2Proof.Machine.execDropHeard t sender tail s
  | .tallyHeard t sender tail => Sys2Proof.Machine.execTallyHeard t sender tail s
  | .wantHeard t sender tail => Sys2Proof.Machine.execWantHeard t sender tail s
  | .claimHeard t sender tail => Sys2Proof.Machine.execClaimHeard t sender tail s
  | .lineHeard t sender tail => Sys2Proof.Machine.execLineHeard t sender tail s
  | .restartHeard t sender tail => Sys2Proof.Machine.execRestartHeard t sender tail s
  | .askHeard t sender tail => Sys2Proof.Machine.execAskHeard t sender tail s
  | .rosterHeard t sender tail => Sys2Proof.Machine.execRosterHeard t sender tail s
  | .infoHeard t kind sender tail => Sys2Proof.Machine.execInfoHeard t kind sender tail s
  | .tallyExpiry t => Sys2Proof.Machine.execTallyExpiry t s
  | .wantTimerExpiry t slot => Sys2Proof.Machine.execWantTimerExpiry t slot s
  | .sweepDeadline t slot => Sys2Proof.Machine.execSweepDeadline t slot s
  | .silenceClose t slot => Sys2Proof.Machine.execSilenceClose t slot s
  | .claimLapse t key index => Sys2Proof.Machine.execClaimLapse t key index s
  | .heardLapse t key index claimant => Sys2Proof.Machine.execHeardLapse t key index claimant s
  | .reassemblyTimeout t sender key index => Sys2Proof.Machine.execReassemblyTimeout t sender key index s
  | .peerAbsent t station => Sys2Proof.Machine.execPeerAbsent t station s
  | .rosterExpiry t => Sys2Proof.Machine.execRosterExpiry t s
  | .minuteExpiry t => Sys2Proof.Machine.execMinuteExpiry t s
  | .lineBusy t => Sys2Proof.Machine.execLineBusy t s

end Sys2Proof.Machine
end

