-- ==== Sys2Proof/Safety.lean ====
section
/-! DEFINITION. What a safe step is, the invariants of the FCA-8 that every step keeps, and the vocabulary the statements use. -/

namespace Sys2Proof.Machine

/-- A step is safe when it answers a next state: the book describes no event that stops the part. -/
def answers (o : Host.Outcome State Fault Refusal) (s : State) : Prop := o = .next s

/-! ## Hearing a frame -/

/-- An attachment's frame is heard here: the part runs, its line state is not UNSYNCED, it has no part in the frame, and the sender is another station (R109, R112). -/
def hears (s : State) (sender : Station) : Prop :=
  s.phase = .running ∧ s.slc.lineState ≠ .unsynced ∧ s.slc.role = .none ∧ sender ≠ stationOf s.ssv.own

/-- The stamp of a frame that ends at `t` (R113): the station time in whole milliseconds. -/
def stampAt (t : Nat) (s : State) : Nat := max s.clock t / 1000

/-- What every well-formed frame does before its own kind's rule (R98, R111): the line is BUSY, the sender present, counter 4 raised, and the slot its key reaches referenced. -/
def heardBy (t : Nat) (sender : Station) (p : Payload) (s : State) : State :=
  let s := frameEnded (recessiveAfter (fieldBits (kindField p.kind sender) ++ frameTail sender p)) (advance t s)
  refreshOf p s.now (bump 4 1 (markPresent sender s.now s))

/-- The command that a frame with this payload is. -/
def heardCommand (t : Nat) (sender : Station) (p : Payload) : Instr :=
  match p with
  | .openF .. => .openHeard t sender (frameTail sender p)
  | .closeF .. => .closeHeard t sender (frameTail sender p)
  | .dropF .. => .dropHeard t sender (frameTail sender p)
  | .tallyF .. => .tallyHeard t sender (frameTail sender p)
  | .wantF .. => .wantHeard t sender (frameTail sender p)
  | .claimF .. => .claimHeard t sender (frameTail sender p)
  | .lineF .. => .lineHeard t sender (frameTail sender p)
  | .restartF .. => .restartHeard t sender (frameTail sender p)
  | .askF .. => .askHeard t sender (frameTail sender p)
  | .rosterF .. => .rosterHeard t sender (frameTail sender p)
  | .describeNullF .. => .infoHeard t .describe sender (frameTail sender p)
  | .describeF .. => .infoHeard t .describe sender (frameTail sender p)
  | .noteF .. => .infoHeard t .note sender (frameTail sender p)
  | .reportF .. => .infoHeard t .report sender (frameTail sender p)

/-! ## Invariants -/

/-- The tables and lists stay within their sizes: history (R17), pulse list (R22), tail (R31), queue (R104), claim table (R137), reassembly table (R151), counters (R176); the line in progress, the copies of the tail and the pages have 1,200 pixels (R30, R43, R53). -/
structure Bounded (s : State) : Prop where
  history : s.lfr.history.length ≤ Config.historyWords
  pulses : s.lfr.pulses.length ≤ Config.pulseRoom
  tail : s.lfr.tail.length ≤ Config.tailRoom
  queue : s.slc.queue.length ≤ Config.queueRoom
  lines : lineEntries s.slc.queue ≤ Config.lineRoom
  claims : s.xen.claims.length ≤ Config.claimRoom
  assemblies : s.xen.assemblies.length ≤ Config.assemblyRoom
  counters : ∀ i : Fin 16, s.ssv.counters[i] ≤ Config.counterLimit
  line : ∀ l, s.lfr.line = some l → l.pixels.length = Config.linePixels
  copies : ∀ t ∈ s.lfr.tail, t.copy.pixels.length = Config.linePixels
  pages : ∀ p ∈ s.cst.pages, p.2.length = Config.linePixels

/-- A pattern's run, first word and confirmed flag go together (R14). -/
structure PatternRun.Sound (p : PatternRun) : Prop where
  run : p.run ≤ 8
  first : p.run = 0 ↔ p.first = none
  confirmed : p.confirmed = true ↔ p.run = 8

/-- The LCU keeps to its ranges: the window count and accumulators (R1, R4), the even tuning offset and its counts (R7 to R9), the clip blanking count (R11), GDN and its timer (R12), the pattern runs (R14). -/
structure Conditioned (l : Lcu) : Prop where
  count : l.windowCount < Config.windowWords
  usable : l.acc.usable ≤ l.windowCount
  overload : l.acc.overload ≤ l.windowCount
  crossings : l.acc.crossings ≤ l.windowCount
  bright : l.acc.brightCount ≤ l.acc.usable
  strength : l.acc.strengthSum ≤ 63 * l.acc.usable
  brightLow : 128 * l.acc.brightCount ≤ l.acc.brightSum
  brightHigh : l.acc.brightSum ≤ 255 * l.acc.brightCount
  offset : -48 ≤ l.offset ∧ l.offset ≤ 48 ∧ l.offset % 2 = 0
  tuningBlank : l.tuningBlank ≤ 2
  jumpRun : l.jumpRun ≤ 3
  clipBlank : l.clipBlank ≤ 4
  gainDown : l.gdn = true ↔ l.gainDownEnd ≠ none
  start : l.start.Sound
  stop : l.stop.Sound

/-- The pages the four line maps hold. -/
def heldPages (s : State) : List Nat :=
  allSlots.flatMap (fun i => match recordAt s i with | some c => c.lineMap.map (fun e => e.2.page) | none => [])

/-- The line map of a slot and its summaries agree (R65, R66). -/
structure Chart.Sound (floor : Nat) (c : Chart) : Prop where
  rising : rising c.lineMap
  index : ∀ e ∈ c.lineMap, e.1 < Config.chartLines
  code : ∀ e ∈ c.lineMap, e.2.code = qualityCode e.2.q
  held : c.heldCount = c.lineMap.length
  poor : c.poorCount = c.lineMap.countP (fun e => isPoor floor e.2.q)
  highest : c.highestHeld = (c.lineMap.getLast?).map Prod.fst

/-- The chart store accounts for every page (R53) and its pool, maps and summaries stand in their forms (R65, R66). -/
structure Stored (s : State) : Prop where
  pool : Memory.wf s.cst.pages
  pages : (s.cst.free ++ heldPages s).Perm (List.range Config.poolPages)
  charts : ∀ i c, recordAt s i = some c → c.Sound s.ssv.boot.poorFloor
  boot : s.phase ≠ .running → ∀ i, recordAt s i = none

/-- A bound slot is LIVE and is the framer's bound slot, in IMAGE only; so at most one slot is bound (R55). -/
def Bindings (s : State) : Prop :=
  ∀ i c, recordAt s i = some c → c.bound = true → c.state = .live ∧ s.lfr.state = .image ∧ s.lfr.bound = some i

/-- No key is the key or second key of two slots, and no slot carries its own key twice (R55). -/
def KeysDistinct (s : State) : Prop :=
  (∀ i c, recordAt s i = some c → c.otherKey ≠ some c.key) ∧
  ∀ i j ci cj k, recordAt s i = some ci → recordAt s j = some cj → ci.answersTo k = true → cj.answersTo k = true → i = j

/-- Every column of every view lists rising indices 0..2047 with codes 1..15 (R117). -/
def Viewed (s : State) : Prop :=
  ∀ (i : SlotNo) (r : Receiver), columnWf (s.xen.views[i])[r] ∧
    ∀ e ∈ (s.xen.views[i])[r], e.1 < Config.chartLines ∧ e.2 ≤ 15

/-- An entry is the last fragment of its line (R145, R146). -/
def Entry.isLastFragment (e : Entry) : Bool :=
  match e.payload with
  | .lineF _ _ count fragment .. => fragment.toNat + 1 == count.toNat
  | _ => false

/-- Claim table, build list and queued LINE fragments agree: what R137 says of the table and R142 of the list, and what keeps a line from being built or answered while fragments of it are queued (R105, R141, R143, R146). -/
structure Tracked (s : State) : Prop where
  index : ∀ c ∈ s.xen.claims, c.index < Config.chartLines
  keys : ∀ c ∈ s.xen.claims, ∃ i d, recordAt s i = some d ∧ d.key = c.key
  own : s.xen.claims.Pairwise (fun a b => a.isOwn = true → b.isOwn = true → a.key = b.key → a.index ≠ b.index)
  heard : s.xen.claims.Pairwise (fun a b =>
    a.state = .heard → b.state = .heard → a.key = b.key → a.index = b.index → a.claimant ≠ b.claimant)
  room : s.xen.build.length ≤ Config.claimRoom
  once : s.xen.build.Nodup
  active : ∀ l ∈ s.xen.build, ∃ c ∈ s.xen.claims, c.isActiveOf l.key l.index = true
  /-- A line with a fragment queued has been built and is not PENDING; it is ACTIVE, or its fragment is on the wire and leaves at a loss. -/
  fragments : ∀ e ∈ s.slc.queue, ∀ k j, e.isFragmentOf k j = true →
    ⟨k, j⟩ ∉ s.xen.build ∧ (∀ c ∈ s.xen.claims, c.isPendingOf k j = false) ∧
    ((∃ c ∈ s.xen.claims, c.isActiveOf k j = true) ∨ e.onWire = true ∧ Request.remove ∈ e.waiting)
  /-- No fragment of a line stands behind its last. -/
  order : s.slc.queue.Pairwise (fun d e =>
    ∀ k j, d.isFragmentOf k j = true → e.isFragmentOf k j = true → d.isLastFragment = false)
  /-- The frame on the wire is the oldest of its class (R101, R103). -/
  oldest : s.slc.queue.Pairwise (fun d e => e.onWire = true → kindClass d.payload.kind ≠ kindClass e.payload.kind)
  /-- No frame on the wire waits for another key: a withdrawal comes with a heard frame. -/
  waiting : ∀ e ∈ s.slc.queue, ∀ old new, Request.replaceKey old new ∉ e.waiting

/-- One frame is on the wire while the SLC has a part in it, none otherwise; SLE and silent follow the role (R101, R106, R108). -/
structure Wired (l : Slc) : Prop where
  wire : (l.queue.countP (·.onWire)) = if l.role = .none then 0 else 1
  sle : l.sle = true ↔ l.role ≠ .none
  silent : l.silent ≠ none → l.role = .none
  run : l.damageRun < Config.damageLimit

/-- In reset and boot the share line is not driven: no part in a frame, SLE low, SLT recessive (R115, R169). -/
def OffTheLine (s : State) : Prop :=
  s.phase ≠ .running → s.slc.role = .none ∧ s.slc.sle = false ∧ s.slc.sltRecessive = true

end Sys2Proof.Machine
end

