-- ==== Sys2Proof/Certificates/Slice0/Obligations.lean ====
section
/-! DEFINITION. The statements about the FCA-8: machine and start-up, level port and framer, quality and store, frames, the share line, the heard frames, the timers, the invariants. -/

open Sys2Proof Sys2Proof.Machine

/-! ## The machine, reset and boot -/

/-- A step takes the command at the front of the queue and runs it on the state with the queue's rest. -/
def Obligations.StepRunsFrontCommand : Prop :=
  ∀ (c : Instr) (rest : List Instr) (s : State), s.pending = c :: rest →
    step s = exec c { s with pending := rest }

/-- On an empty queue nothing moves in reset, the boot read takes a step in boot, and after boot station time moves to the next whole millisecond and the events then due join the queue (the model's choice, notes/assumptions/4.md, 22.md). -/
def Obligations.IdleStepMovesTime : Prop :=
  ∀ s : State, s.pending = [] →
    (s.phase = .inReset → step s = .next s) ∧
    (s.phase = .boot → step s = .next (bootStep s)) ∧
    (s.phase = .running →
      step s = .next { s with
        clock := (s.clock / 1000 + 1) * 1000
        pending := dueEvents { s with clock := (s.clock / 1000 + 1) * 1000 } })

/-- Every command but RESET and END_OF_BOOT completes, and leaves phase, own station, boot fields, configuration status, version, the boot bus with what was read on it, and the waiting commands as they stand, and station time never goes back (R174; the waiting commands and the clock's course are the model's, notes/assumptions/7.md, 8.md). -/
def Obligations.OnlyResetAndBootConfigure : Prop :=
  ∀ (c : Instr) (s : State), (∀ pin, c ≠ .reset pin) → (∀ steps, c ≠ .endOfBoot steps) →
    ∃ u, exec c s = .next u ∧ u.phase = s.phase ∧ u.ssv.own = s.ssv.own ∧ u.ssv.boot = s.ssv.boot ∧
      u.ssv.status = s.ssv.status ∧ u.ssv.version = s.ssv.version ∧ u.ssv.bootBus = s.ssv.bootBus ∧
      u.ssv.bootSteps = s.ssv.bootSteps ∧ u.pending = s.pending ∧ s.clock ≤ u.clock

/-- RESETN low: every block takes its values after reset and the page contents stay; the release begins boot with the straps as own station and the part master of the boot bus.  The station time, timers, own station, boot fields, status and version named here (notes/assumptions/5.md), the waiting commands kept over a reset and a release of a part not in reset (notes/assumptions/7.md, 29.md) are the model's (R16, R40, R79, R97, R115, R132, R155, R167, R169, R170, R171, R178). -/
def Obligations.ResetPinTakesEffect : Prop :=
  (∀ s : State, ∃ u, exec (.reset .low) s = .next u ∧ u.phase = .inReset ∧ u.clock = 0 ∧ u.pending = s.pending ∧
    u.lcu = { wordPos := 0, windowCount := 0, acc := ⟨0, 0, 0, 0, 0, 0⟩, crossing := .unset, offset := 0, status := .inBand,
              tuningBlank := 0, jumpRun := 0, clipBlank := 0, start := ⟨0, none, false⟩, stop := ⟨0, none, false⟩,
              gainDownEnd := none, gdn := false } ∧
    u.lfr = { state := .idle, startSeen := false, history := [], darkRun := none, firstPulse := none, rate := none,
              pulses := [], period := none, missCount := 0, phasingSince := none, zero := none, tLocal := none,
              line := none, tail := [], fadedCount := 0, bound := none, highest := none } ∧
    u.cst.pages = s.cst.pages ∧ u.cst.free = List.range 8704 ∧ u.cst.poolReported = false ∧
    (∀ i, recordAt u i = none) ∧ u.cst.evictPtr = 0 ∧ u.cst.ownSequence = 0 ∧
    (∀ (i : SlotNo) (r : Receiver), (u.xen.views[i])[r] = []) ∧ (∀ i : SlotNo, u.xen.openReq[i] = .nothing) ∧
    u.xen.tallyDue = 2000 ∧ u.xen.tallyPtr = 0 ∧ u.xen.claims = [] ∧ u.xen.build = [] ∧ u.xen.assemblies = [] ∧
    u.slc = { lineState := .unsynced, recessiveRun := 0, rx := none, role := .none, queue := [], damageRun := 0,
              silent := none, sle := false, sltRecessive := true } ∧
    (∀ n : Fin 16, u.ssv.counters[n] = 0) ∧ (∀ st : Station, u.ssv.peers[st] = none) ∧ u.ssv.own = 0 ∧
    u.ssv.boot = BootFields.defaults ∧ u.ssv.status = .defaults ∧ u.ssv.version = 0 ∧ u.ssv.minuteDue = 60000 ∧
    u.ssv.rosterDue = 200 ∧ u.ssv.bootBus = .freed ∧ u.ssv.bootSteps = []) ∧
  (∀ (s : State) (straps : Receiver) (m : BootMemory),
    (s.phase = .inReset → exec (.reset (.released straps m)) s = .next
      { s with phase := .boot, ssv := { s.ssv with own := straps, bootBus := .mastering m, bootSteps := [] } }) ∧
    (s.phase ≠ .inReset → exec (.reset (.released straps m)) s = .next s))

/-- The boot read, step by step: none on a BMD found low; else address 0x50 for writing, offset byte 0, address 0x50 for reading and the 24 bytes, all acknowledged but the last, up to the first step the device refuses or as far as it gives bytes; the bus is released once the read is over, and nothing else moves.  How many steps come before the end of boot is the model's operand (notes/assumptions/22.md) (R171). -/
def Obligations.BootMemoryRead : Prop :=
  (∀ (s : State) (n : Nat), takeBootSteps 0 s = s ∧ takeBootSteps (n + 1) s = takeBootSteps n (bootStep s)) ∧
  (∀ s : State, s.ssv.bootBus = .freed → bootStep s = s) ∧
  (∀ (s : State) (m : BootMemory), s.ssv.bootBus = .mastering m → s.ssv.bootSteps = [] →
    (m.bmdLow = true → bootStep s = { s with ssv := { s.ssv with bootBus := .freed } }) ∧
    (m.bmdLow = false → ∀ n : Nat,
      let bytes := (m.bytes.take 24).zipIdx.map (fun b => BusStep.taken b.1 (b.2 != 23))
      let course : List BusStep :=
        if m.ackWrite = false then [.address 0x50 true false]
        else if m.ackOffset = false then [.address 0x50 true true, .sent 0 false]
        else if m.ackRead = false then [.address 0x50 true true, .sent 0 true, .address 0x50 false false]
        else [.address 0x50 true true, .sent 0 true, .address 0x50 false true] ++ bytes
      let ends := m.ackWrite = false ∨ m.ackOffset = false ∨ m.ackRead = false ∨ 24 ≤ m.bytes.length
      takeBootSteps n s = { s with ssv := { s.ssv with
        bootSteps := course.take n
        bootBus := if ends ∧ course.length ≤ n then .freed else .mastering m } }))

/-- The end of boot: the steps still left to the boot read are taken and the bus is released; station time and word position start at 0, the SLC reads the line in UNSYNCED, the tally, ROSTER and minute timers begin to run; the outcome of the boot read is judged: no answer and a foreign version byte take every default, version 0xA3 its fields, each number clamped to its range, each enumeration its value or default, the pair rule on the rates, ASREAD exactly when nothing was altered and else CLAMPED; a part not in boot is left as it is (the model's choice, notes/assumptions/29.md) (R122, R160, R169, R171, R172, R173, R177, R182). -/
def Obligations.EndOfBootStartsThePart : Prop :=
  (∀ (s : State) (n : Nat),
    (s.phase ≠ .boot → exec (.endOfBoot n) s = .next s) ∧
    (s.phase = .boot → ∃ u, exec (.endOfBoot n) s = .next u ∧ u.phase = .running ∧ u.clock = 0 ∧
      u.lcu = { s.lcu with wordPos := 0 } ∧ u.lfr = s.lfr ∧ u.cst = s.cst ∧
      u.xen = { s.xen with tallyDue := 2000 } ∧
      u.slc = { s.slc with lineState := .unsynced, recessiveRun := 0, rx := none } ∧
      u.ssv.rosterDue = 200 * (s.ssv.own.val + 1) ∧ u.ssv.minuteDue = 60000 ∧ u.ssv.own = s.ssv.own ∧
      u.ssv.counters = s.ssv.counters ∧ u.ssv.peers = s.ssv.peers ∧ u.ssv.bootBus = .freed ∧ u.pending = s.pending ∧
      u.ssv.bootSteps = (takeBootSteps n s).ssv.bootSteps ∧
      let bytes := u.ssv.bootSteps.filterMap (fun x => match x with | .taken b _ => some b | _ => none)
      (bytes.length ≠ 24 →
        u.ssv.version = 0 ∧ u.ssv.boot = BootFields.defaults ∧ u.ssv.status = .defaults) ∧
      (bytes.length = 24 → bytes.getD 0 0 ≠ 0xA3 →
        u.ssv.version = bytes.getD 0 0 ∧ u.ssv.boot = BootFields.defaults ∧ u.ssv.status = .defaults) ∧
      (bytes.length = 24 → bytes.getD 0 0 = 0xA3 →
        u.ssv.version = 0xA3 ∧ u.ssv.boot = (bootFields bytes).1 ∧
        u.ssv.status = if (bootFields bytes).2 then .clamped else .asRead))) ∧
  (∀ b : List Byte,
    let num := fun i : Nat => (b.getD i 0).toNat
    let f := (bootFields b).1
    let start := max 100 (min 800 (num 2 * 256 + num 3))
    let stop := max 100 (min 800 (num 4 * 256 + num 5))
    let close := start < stop + 100 ∧ stop < start + 100
    f.tag = max 1 (min 15 (num 1)) ∧
    (close → f.startRate = 300 ∧ f.stopRate = 450) ∧ (¬ close → f.startRate = start ∧ f.stopRate = stop) ∧
    f.margin = max 1 (min 20 (num 6)) ∧ f.poorFloor = min 100 (num 7) ∧ f.wantLevel = max 2 (min 15 (num 8)) ∧
    f.sweepSeconds = num 9 ∧ (f.sweepEnd = .keep ↔ num 10 = 1) ∧ f.fadeThreshold = min 63 (num 11) ∧
    f.fadeSeconds = max 10 (num 12) ∧ (f.fadeMode = .none ↔ num 13 = 0) ∧ (f.fadeMode = .report ↔ num 13 = 1) ∧
    (f.clipMode = .none ↔ num 14 = 0) ∧ (f.clipMode = .report ↔ num 14 = 1) ∧ (f.tuningOn = false ↔ num 15 = 0) ∧
    f.noteMask.toNat = num 16 * 256 + num 17 ∧
    ((bootFields b).2 = false ↔
      1 ≤ num 1 ∧ num 1 ≤ 15 ∧ start = num 2 * 256 + num 3 ∧ stop = num 4 * 256 + num 5 ∧ ¬ close ∧
      1 ≤ num 6 ∧ num 6 ≤ 20 ∧ num 7 ≤ 100 ∧ 2 ≤ num 8 ∧ num 8 ≤ 15 ∧ num 10 ≤ 1 ∧ num 11 ≤ 63 ∧ 10 ≤ num 12 ∧
      num 13 ≤ 2 ∧ num 14 ≤ 2 ∧ num 15 ≤ 1))

/-! ## The level port and the framer -/

/-- A level word marked after the end of boot is taken: position and window count advance, the word history takes the corrected word, station time moves on; the line's own state, configuration, peers, timers and waiting commands stay. One marked before the end of boot gets no position, enters no window and is not handed on, nor is any word in reset or boot (R1, R2, R17). -/
def Obligations.LevelWordTaken : Prop :=
  ∀ (s : State) (t : Nat) (bits : BitVec 16),
    (s.phase ≠ .running → ∀ mark, exec (.levelWord t ⟨mark, bits⟩) s = .next s) ∧
    (s.phase = .running → exec (.levelWord t ⟨.beforeEndOfBoot, bits⟩) s = .next { s with clock := max s.clock t }) ∧
    (s.phase = .running → ∃ u, exec (.levelWord t ⟨.afterEndOfBoot, bits⟩) s = .next u ∧
      u.lcu.wordPos = s.lcu.wordPos + 1 ∧
      u.lcu.windowCount = (if 1200 ≤ s.lcu.windowCount + 1 then 0 else s.lcu.windowCount + 1) ∧
      u.lfr.history = (s.lfr.history ++
        [({ pos := s.lcu.wordPos, level := (max 0 (min 255 ((bits.toNat / 256 : Nat) - s.lcu.offset))).toNat,
            strength := bits.toNat / 4 % 64, valid := bits.toNat % 2 == 1, overload := bits.toNat / 2 % 2 == 1 } :
            HeardWord)]).drop (s.lfr.history.length + 1 - 9600) ∧
      u.clock = max s.clock t ∧ u.phase = .running ∧ u.pending = s.pending ∧
      u.slc = { s.slc with queue := u.slc.queue } ∧ u.ssv = { s.ssv with counters := u.ssv.counters } ∧
      u.xen.tallyDue = s.xen.tallyDue ∧ u.xen.tallyPtr = s.xen.tallyPtr)

/-- A word's hand-off and the LCU's own part in it: the corrected word goes to the framer, position and window count advance, the crossing detector and the accumulators move as the rules give and nothing else of the LCU; a word that does not close its window ends with the framer's part (R1, R2, R3, R4). -/
def Obligations.WindowAccumulates : Prop :=
  ∀ (s : State) (t : Nat) (bits : BitVec 16),
    let level := (max 0 (min 255 ((bits.toNat / 256 : Nat) - s.lcu.offset))).toNat
    let valid := bits.toNat % 2 = 1
    let overload := bits.toNat / 2 % 2 = 1
    let usable := valid ∧ ¬ overload
    let crossing := if valid ∧ level ≤ 96 then Crossing.dark else if valid ∧ 160 ≤ level then .bright else s.lcu.crossing
    let w := handOff bits s.lcu
    let l := lcuWord w s.lcu
    w = { pos := s.lcu.wordPos, level := level, strength := bits.toNat / 4 % 64, valid := decide valid,
          overload := decide overload } ∧
    l = { s.lcu with
      wordPos := s.lcu.wordPos + 1
      windowCount := s.lcu.windowCount + 1
      crossing := crossing
      acc :=
        { usable := s.lcu.acc.usable + if usable then 1 else 0
          strengthSum := s.lcu.acc.strengthSum + if usable then bits.toNat / 4 % 64 else 0
          overload := s.lcu.acc.overload + if overload then 1 else 0
          crossings := s.lcu.acc.crossings + if s.lcu.crossing ≠ .unset ∧ crossing ≠ s.lcu.crossing then 1 else 0
          brightCount := s.lcu.acc.brightCount + if usable ∧ 128 ≤ level then 1 else 0
          brightSum := s.lcu.acc.brightSum + if usable ∧ 128 ≤ level then level else 0 } } ∧
    (s.phase = .running → s.lcu.windowCount + 1 < 1200 →
      exec (.levelWord t ⟨.afterEndOfBoot, bits⟩) s = .next (framerWord w { s with clock := max s.clock t, lcu := l }))

/-- The 1,200th word closes the window behind the framer's part in it: the accumulators clear, a faded window counts in counter 15, the tuning loop runs with NOTE class 8 at a jump reset, a clipped window counts in counter 14 with NOTE class 7 and may pulse GDN, both patterns take the crossings, and the window report goes to the framer. That the acts and their NOTEs come in this order (notes/assumptions/9.md) and that the report's window number is the first word's position by 1,200 (notes/assumptions/11.md) are the model's, DEDUCED (R4, R5, R6, R7, R8, R11, R12, R13, R14). -/
def Obligations.WindowCloses : Prop :=
  ∀ (s : State) (t : Nat) (bits : BitVec 16), s.phase = .running → s.lcu.windowCount = 1199 →
    let w := handOff bits s.lcu
    let l := lcuWord w s.lcu
    let fed := framerWord w { s with clock := max s.clock t, lcu := l }
    let b := s.ssv.boot
    let faded := decide (l.acc.meanStrength < b.fadeThreshold ∨ l.acc.usable < 600)
    let tuned := tuneWindow b l.acc l
    let first := s.lcu.wordPos - 1199
    let clips := b.clipMode ≠ .none ∧ 24 ≤ l.acc.overload ∧ (b.clipMode = .act → s.lcu.clipBlank = 0)
    let pulses := clips ∧ b.clipMode = .act
    let toneSeen (rate : Nat) (p : PatternRun) :=
      patternWindow (decide (10 * ((l.acc.crossings : Int) - (rate / 2 : Nat)).natAbs ≤ rate / 2)) first p
    let start := toneSeen b.startRate s.lcu.start
    let stop := toneSeen b.stopRate s.lcu.stop
    let counted := if faded then bump 15 1 fed else fed
    let reset := match tuned.2 with
      | none => counted
      | some o => raiseNote 8 none (BitVec.ofInt 16 o) counted
    let clipped := if clips then raiseNote 7 none (BitVec.ofNat 16 l.acc.overload) (bump 14 1 reset) else reset
    exec (.levelWord t ⟨.afterEndOfBoot, bits⟩) s = .next (framerReport
      ⟨first.toNat / 1200, faded, if start.2 then start.1.first else none, if stop.2 then stop.1.first else none⟩
      { clipped with lcu := { s.lcu with
        wordPos := s.lcu.wordPos + 1
        windowCount := 0
        acc := ⟨0, 0, 0, 0, 0, 0⟩
        crossing := l.crossing
        offset := tuned.1.offset
        status := tuned.1.status
        tuningBlank := tuned.1.tuningBlank
        jumpRun := tuned.1.jumpRun
        clipBlank := if b.clipMode ≠ .act then s.lcu.clipBlank else if clips then 4 else s.lcu.clipBlank - 1
        gdn := if pulses then true else s.lcu.gdn
        gainDownEnd := if pulses then some (stampAt t s + 20) else s.lcu.gainDownEnd
        start := start.1
        stop := stop.1 } })

/-- The tuning loop at a window close, case by case: OFF, not eligible, jump reset, blanking, step; and a pattern run in its form: no match clears it, a match begins it, raises it, confirms it at 8 once, or leaves it at 8; that clearing leaves no run first word is DEDUCED (notes/assumptions/10.md) (R7, R8, R9, R10, R14). -/
def Obligations.WindowVerdictsStep : Prop :=
  (∀ (b : BootFields) (a : WindowAcc) (l : Lcu),
    let eligible := ¬ (a.meanStrength < b.fadeThreshold) ∧ 600 ≤ a.usable ∧ 600 ≤ a.brightCount
    let far := 64 < ((a.brightMean : Int) - 240).natAbs
    let run := if far then l.jumpRun + 1 else 0
    (b.tuningOn = false → tuneWindow b a l = (l, none)) ∧
    (b.tuningOn = true → ¬ eligible →
      tuneWindow b a l = ({ l with jumpRun := 0, tuningBlank := l.tuningBlank - 1 }, none)) ∧
    (b.tuningOn = true → eligible → 4 ≤ run →
      tuneWindow b a l = ({ l with offset := 0, tuningBlank := 2, jumpRun := 0 }, some l.offset)) ∧
    (b.tuningOn = true → eligible → run < 4 → l.tuningBlank ≠ 0 →
      tuneWindow b a l = ({ l with jumpRun := run, tuningBlank := l.tuningBlank - 1 }, none)) ∧
    (b.tuningOn = true → eligible → run < 4 → l.tuningBlank = 0 → 246 < a.brightMean →
      tuneWindow b a l =
        ({ l with jumpRun := run, status := .high, offset := min 48 (l.offset + 2),
                  tuningBlank := if min 48 (l.offset + 2) = l.offset then 0 else 2 }, none)) ∧
    (b.tuningOn = true → eligible → run < 4 → l.tuningBlank = 0 → 234 ≤ a.brightMean → a.brightMean ≤ 246 →
      tuneWindow b a l = ({ l with jumpRun := run, status := .inBand }, none)) ∧
    (b.tuningOn = true → eligible → run < 4 → l.tuningBlank = 0 → a.brightMean < 234 →
      tuneWindow b a l =
        ({ l with jumpRun := run, status := .low, offset := max (-48) (l.offset - 2),
                  tuningBlank := if max (-48) (l.offset - 2) = l.offset then 0 else 2 }, none))) ∧
  (∀ (p : PatternRun) (first : Position), p.Sound →
    patternWindow false first p = (⟨0, none, false⟩, false) ∧
    (p.run = 0 → patternWindow true first p = (⟨1, some first, false⟩, false)) ∧
    (1 ≤ p.run → p.run ≤ 6 → patternWindow true first p = (⟨p.run + 1, p.first, false⟩, false)) ∧
    (p.run = 7 → patternWindow true first p = (⟨8, p.first, true⟩, true)) ∧
    (p.run = 8 → patternWindow true first p = (p, false)))

/-- WORD_DISCARD only lets station time move on; GDN returns low at the end of its 20 ms; 20,000 ms of PHASING without an accepted pulse return the framer to IDLE with history and dark run kept; nothing else moves (R1, R12, R26, R39). -/
def Obligations.LevelPortTimesEnd : Prop :=
  (∀ (s : State) (t : Nat), exec (.wordDiscard t) s =
    .next (if s.phase = .running then { s with clock := max s.clock t } else s)) ∧
  (∀ (s : State) (t e : Nat), s.phase = .running → s.lcu.gainDownEnd = some e → e ≤ stampAt t s →
    exec (.gainDownEnd t) s = .next { s with
      clock := max s.clock t
      lcu := { s.lcu with gdn := false, gainDownEnd := none } }) ∧
  (∀ (s : State) (t p : Nat), s.phase = .running → s.lfr.state = .phasing → s.lfr.phasingSince = some p →
    p + 20000 ≤ stampAt t s →
    exec (.phasingTimeout t) s = .next { s with
      clock := max s.clock t
      lfr := { state := .idle, startSeen := false, history := s.lfr.history, darkRun := s.lfr.darkRun, firstPulse := none,
               rate := none, pulses := [], period := none, missCount := 0, phasingSince := none, zero := none,
               tLocal := none, line := none, tail := [], fadedCount := 0, bound := none, highest := none } })

/-- The framer's history, dark run and pulses at a word: a pulse is a run a light word ends, judged by the band of the framer's state; IDLE takes a first pulse, or with a second that fits a rate begins PHASING; PHASING accepts a pulse within Nw / 100 of the predicted position and sets P anew from the first and last of at most sixteen; any other word moves only history and dark run (R17, R18, R19, R20, R22, R23). -/
def Obligations.PulsesTaken : Prop :=
  (∀ (p : Position) (z : FinePosition), (finePosition p).toNat = 16 * p.toNat ∧ (wordOf z).toNat = z.toNat / 16) ∧
  ∀ (w : HeardWord) (now : Nat) (f : Lfr),
    let dark := w.valid = true ∧ w.level ≤ 64
    let light := w.valid = true ∧ 192 ≤ w.level
    let heard := { f with
      history := (f.history ++ [w]).drop (f.history.length + 1 - 9600)
      darkRun := if dark then
          (match f.darkRun with
            | none => some ⟨w.pos, 1⟩
            | some r => some ⟨r.first, min 385 (r.length + 1)⟩)
        else none }
    let band (r : Rate) (n : Nat) : Prop := rateWords r ≤ 50 * n ∧ 100 * n ≤ 8 * rateWords r
    let clamped (r : Rate) (p : Nat) : Nat :=
      max (16 * rateWords r - 16 * rateWords r / 100) (min (16 * rateWords r + 16 * rateWords r / 100) p)
    (¬ light ∨ f.darkRun = none ∨ f.state = .image → detectPulse w now f = heard) ∧
    (∀ c, light → f.darkRun = some c → f.state = .idle →
      (¬ (24 ≤ c.length ∧ c.length ≤ 384) → detectPulse w now f = heard) ∧
      (24 ≤ c.length → c.length ≤ 384 →
        (f.firstPulse = none → detectPulse w now f = { heard with firstPulse := some c }) ∧
        ∀ a, f.firstPulse = some a →
          let interval := wordsAfter c.first a.first
          let fits (r : Rate) : Prop :=
            50 * ((interval : Int) - rateWords r).natAbs ≤ interval ∧ band r a.length ∧ band r c.length
          ((∀ r, ¬ fits r) → detectPulse w now f = { heard with firstPulse := some c }) ∧
          ∀ r, fits r → detectPulse w now f = { heard with
            state := .phasing, rate := some r, pulses := [⟨a.first, 0⟩, ⟨c.first, 1⟩],
            period := some (clamped r (16 * interval)), missCount := 0, phasingSince := some now, firstPulse := none })) ∧
    (∀ c r x y more, light → f.darkRun = some c → f.state = .phasing → f.rate = some r → f.pulses = x :: y :: more →
      let last := (y :: more).getLastD y
      let predicted : Position :=
        if more = [] then y.pos + BitVec.ofNat 40 ((f.missCount + 1) * wordsAfter y.pos x.pos)
        else wordOf (finePosition last.pos + BitVec.ofNat 44 ((f.missCount + 1) * f.period.getD 0))
      let near := wordsAfter (c.first + BitVec.ofNat 40 (rateWords r / 100)) predicted ≤ 2 * (rateWords r / 100)
      let kept := (if f.pulses.length < 16 then [x] else []) ++ y :: more
      let oldest := kept.headD x
      let span := last.beat + f.missCount + 1 - oldest.beat
      predictedPulse f.pulses (f.period.getD 0) f.missCount = some predicted ∧
      (¬ band r c.length ∨ ¬ near → detectPulse w now f = heard) ∧
      (band r c.length → near → detectPulse w now f = { heard with
        pulses := kept ++ [⟨c.first, last.beat + f.missCount + 1⟩]
        period := some (clamped r ((32 * wordsAfter c.first oldest.pos + span) / (2 * span)))
        missCount := 0
        phasingSince := some now }))

/-- The framer's word in IDLE and PHASING: behind the pulse, a miss is decided once the word lies more than the tolerance past the predicted position and no run begun within it still holds the decision back; the first raises the miss count, the second enters IMAGE with 8 pulses or more and returns to IDLE with fewer. A window report sets start seen, and a stop confirmation ends PHASING (R21, R24, R25, R27, R39). -/
def Obligations.PhasingDecides : Prop :=
  (∀ (s : State) (w : HeardWord),
    let s1 := { s with lfr := detectPulse w s.now s.lfr }
    (s.lfr.state = .image → framerWord w s = imageWord w s1) ∧
    (s.lfr.state ≠ .image → s1.lfr.state ≠ .phasing → framerWord w s = s1) ∧
    (∀ r p, s.lfr.state ≠ .image → s1.lfr.state = .phasing → s1.lfr.rate = some r →
      predictedPulse s1.lfr.pulses (s1.lfr.period.getD 0) s1.lfr.missCount = some p →
      let late := ¬ isBefore w.pos (p + BitVec.ofNat 40 (rateWords r / 100 + 1)) = true
      let waits := ∃ run, s1.lfr.darkRun = some run ∧ run.length < 385 ∧
        wordsAfter (run.first + BitVec.ofNat 40 (rateWords r / 100)) p ≤ 2 * (rateWords r / 100)
      (¬ late ∨ waits → framerWord w s = s1) ∧
      (late → ¬ waits →
        (s1.lfr.missCount = 0 → framerWord w s = { s1 with lfr := { s1.lfr with missCount := 1 } }) ∧
        (s1.lfr.missCount ≠ 0 → 8 ≤ s1.lfr.pulses.length → framerWord w s = enterImage r s1) ∧
        (s1.lfr.missCount ≠ 0 → s1.lfr.pulses.length < 8 → framerWord w s = { s1 with lfr :=
          { state := .idle, startSeen := false, history := s1.lfr.history, darkRun := s1.lfr.darkRun, firstPulse := none,
            rate := none, pulses := [], period := none, missCount := 0, phasingSince := none, zero := none, tLocal := none,
            line := none, tail := [], fadedCount := 0, bound := none, highest := none } })))) ∧
  (∀ a b : Position, isBefore a b = true ↔ 1 ≤ (b - a).toNat ∧ (b - a).toNat < 2 ^ 39) ∧
  (∀ (s : State) (r : WindowReport),
    (s.lfr.state = .idle → framerReport r s =
      { s with lfr := { s.lfr with startSeen := s.lfr.startSeen || r.start.isSome } }) ∧
    (s.lfr.state = .phasing → r.stop = none → framerReport r s =
      { s with lfr := { s.lfr with startSeen := s.lfr.startSeen || r.start.isSome } }) ∧
    (s.lfr.state = .phasing → r.stop ≠ none → framerReport r s = { s with lfr :=
      { state := .idle, startSeen := r.start.isSome, history := s.lfr.history, darkRun := s.lfr.darkRun, firstPulse := none,
        rate := none, pulses := [], period := none, missCount := 0, phasingSince := none, zero := none, tLocal := none,
        line := none, tail := [], fadedCount := 0, bound := none, highest := none } }))

/-- IMAGE entry: Z one period past the last pulse, T_local, line 0 in progress, the answer of the CST as the bound slot, then the words of the history from Z on taken again. The CST binds the nearest bindable slot with NOTE class 1, else allocates one under an own key with its OPEN put to the queue, else fails with NOTE class 11 and counter 13. The CST is the block that queued that OPEN (R25, R28, R58, R59, R81, R82, R83, R84, R103). -/
def Obligations.ImageEntered : Prop :=
  (∀ (s : State) (r : Rate) (last : Pulse) (p : Nat), s.lfr.pulses.getLast? = some last → s.lfr.period = some p →
    let z := finePosition last.pos + BitVec.ofNat 44 p
    let entered := { s with lfr := { s.lfr with
      state := .image, zero := some z, tLocal := some s.now, phasingSince := none, missCount := 0, fadedCount := 0,
      highest := none, tail := [], bound := none,
      line := some ⟨0, wordOf z, wordOf (z + BitVec.ofNat 44 p), List.replicate 1200 (0, 0), 0, 0⟩ } }
    let answer := requestSlot r s.now entered
    answer.1.lfr = entered.lfr ∧
    enterImage r s = (s.lfr.history.filter (fun w => !isBefore w.pos (wordOf z))).foldl (fun u w => imageWord w u)
      { answer.1 with lfr := { entered.lfr with bound := answer.2 } }) ∧
  (∀ (s : State) (r : Rate) (tLocal : Nat),
    (∀ i o, bindCandidate s r tLocal i = some o ↔ ∃ c p, recordAt s i = some c ∧ c.state = .live ∧ c.bound = false ∧
      c.offset = none ∧ c.tag = s.ssv.boot.tag ∧ c.rate = r ∧ c.peerTransition = some p ∧
      offsetWithin8 tLocal p r = some o) ∧
    (∀ i o c, nearestSlot (bindCandidate s r tLocal) = some (i, o) → recordAt s i = some c →
      requestSlot r tLocal s = (raiseNote 1 (some c.key) (BitVec.ofInt 16 (o + 8)) { s with cst := { s.cst with
        slots := s.cst.slots.set i (some { c with bound := true, offset := some o, localTransition := some tLocal }) } },
        some i)) ∧
    (nearestSlot (bindCandidate s r tLocal) = none →
      ((findSlot s).2 = none →
        requestSlot r tLocal s = (bump 13 1 (raiseNote 11 none 1 (findSlot s).1), none)) ∧
      ∀ i, (findSlot s).2 = some i →
        let v := (findSlot s).1
        let key := ownKey v (nextSequence v)
        let c : Chart :=
          { state := .live, key := key, otherKey := none, tag := v.ssv.boot.tag, rate := r, bound := true, offset := some 0,
            newest := none, localTransition := some tLocal, peerTransition := none, announced := none, highestHeld := none,
            heldCount := 0, poorCount := 0, used := false, lastReference := v.now, wantDue := some (v.now + 4000),
            sweepDeadline := none, closeReason := none, opened := v.now, dirty := 0, lineMap := [] }
        let installed := { v with
          cst := { v.cst with slots := v.cst.slots.set i (some c) }
          xen := { v.xen with views := v.xen.views.set i (Vector.replicate 8 []) } }
        let sequence := (passSequence (nextSequence v) installed).cst.ownSequence
        let offer := enqueue ⟨.openF key (BitVec.ofNat 8 c.tag) (BitVec.ofNat 8 (rateCode r)) 0, .cst, some i, tLocal, [],
          false⟩ { installed with cst := { installed.cst with ownSequence := sequence } }
        requestSlot r tLocal s = ({ offer.1 with xen := { offer.1.xen with
          openReq := v.xen.openReq.set i (if offer.2 then .queued else .owed) } }, some i)))

/-- A word in IMAGE: at or past the next line's start it first closes the line in progress, then it is applied to its pixel, then lines commit from the tail's head while they end 9,600 words behind. A closing line counts in counter 0 and joins the tail, a full tail commits its head first, and line 2,055 ends the image. A commit raises the highest local index and goes to the merge rule at its shared index, or counts in counter 13 (R29, R30, R31, R32, R33, R59). -/
def Obligations.LinesCutAndCommitted : Prop :=
  (∀ (s : State) (w : HeardWord) (l : LineInProgress), s.lfr.state = .image → s.lfr.line = some l →
    let put (x : LineInProgress) : LineInProgress :=
      if w.valid = true ∧ w.overload = false then
        { x with
          pixels := x.pixels.modify (wordsAfter w.pos x.start * 1200 / wordsAfter x.next x.start)
            (fun p => (p.1 + w.level, p.2 + 1))
          usable := x.usable + 1
          strength := x.strength + w.strength }
      else x
    let closed := closeLine l s
    (isBefore w.pos l.next = true →
      imageWord w s = commitDue w.pos s.lfr.tail { s with lfr := { s.lfr with line := some (put l) } }) ∧
    (isBefore w.pos l.next = false →
      (closed.lfr.line = none → imageWord w s = closed) ∧
      ∀ x, closed.lfr.line = some x →
        imageWord w s = commitDue w.pos closed.lfr.tail { closed with lfr := { closed.lfr with line := some (put x) } })) ∧
  (∀ (s : State) (l : LineInProgress) (z : FinePosition) (p : Nat), s.lfr.zero = some z → s.lfr.period = some p →
    let t : TailLine := ⟨l.index, l.start, l.next - 1, formCopy s.ssv.own l⟩
    let start (n : Nat) : Position := wordOf (z + BitVec.ofNat 44 (n * p))
    let closes (u : State) : Prop :=
      (l.index = 2055 → closeLine l s =
        endByFadeOrLimit .limit { u with lfr := { u.lfr with tail := u.lfr.tail ++ [t], line := none } }) ∧
      (l.index ≠ 2055 → closeLine l s = { u with lfr := { u.lfr with
        tail := u.lfr.tail ++ [t]
        line := some ⟨l.index + 1, start (l.index + 1), start (l.index + 2), List.replicate 1200 (0, 0), 0, 0⟩ } })
    (s.lfr.tail.length < 9 → closes (bump 0 1 s)) ∧
    (∀ h rest, s.lfr.tail = h :: rest → 9 ≤ s.lfr.tail.length →
      closes { commitLine h (bump 0 1 s) with lfr := { (commitLine h (bump 0 1 s)).lfr with tail := rest } })) ∧
  (∀ (s : State) (pos : Position) (tail : List TailLine),
    let due (l : TailLine) : Bool := decide (9600 ≤ (pos - l.last).toNat)
    let done := (tail.takeWhile due).foldl (fun u l => commitLine l u) s
    commitDue pos tail s = { done with lfr := { done.lfr with tail := tail.dropWhile due } }) ∧
  (∀ (s : State) (l : TailLine),
    let noted := { s with lfr := { s.lfr with highest := some l.index } }
    (s.lfr.bound = none → commitLine l s = bump 13 1 noted) ∧
    ∀ i c, s.lfr.bound = some i → recordAt s i = some c →
      let shared : Int := l.index + c.offset.getD 0
      (shared < 0 ∨ 2048 ≤ shared → commitLine l s = bump 13 1 noted) ∧
      (∀ j : Nat, shared = j → j < 2048 → commitLine l s = mergeOffer i c.key j l.copy { noted with
        cst := { noted.cst with slots := noted.cst.slots.set i (some { c with newest := some j }) } }))

/-- A window report in IMAGE: a confirmed tone ends the image at the earlier first word and commits the tail lines that start before it; a run of faded windows of fade seconds × 4 ends it with the whole tail, raises NOTE class 9, or is counted afresh. The end queues the CLOSE of a bound slot with the final length, closes the slot, raises NOTE class 3 and returns the framer to IDLE; the line in progress is abandoned (R34, R35, R36, R37, R38, R39, R68, R93). -/
def Obligations.ImageEnds : Prop :=
  (∀ (s : State) (r : WindowReport), s.lfr.state = .image →
    let count (n : Nat) : State := { s with lfr := { s.lfr with fadedCount := n } }
    let n := s.lfr.fadedCount + 1
    (∀ p, r.stop = some p → r.start = none → framerReport r s = endByTone .stop p false s) ∧
    (∀ p, r.stop = none → r.start = some p → framerReport r s = endByTone .start p true s) ∧
    (∀ p q, r.stop = some p → r.start = some q → isBefore q p = true → framerReport r s = endByTone .start q true s) ∧
    (∀ p q, r.stop = some p → r.start = some q → isBefore q p = false → framerReport r s = endByTone .stop p true s) ∧
    (r.stop = none → r.start = none → r.faded = false → framerReport r s = count 0) ∧
    (r.stop = none → r.start = none → r.faded = true →
      (n < s.ssv.boot.fadeSeconds * 4 → framerReport r s = count n) ∧
      (s.ssv.boot.fadeSeconds * 4 ≤ n → s.ssv.boot.fadeMode = .none → framerReport r s = count 0) ∧
      (s.ssv.boot.fadeSeconds * 4 ≤ n → s.ssv.boot.fadeMode = .close → framerReport r s = endByFadeOrLimit .fade s) ∧
      ∀ l, s.ssv.boot.fadeSeconds * 4 ≤ n → s.ssv.boot.fadeMode = .report → s.lfr.line = some l →
        (s.lfr.bound = none → framerReport r s = raiseNote 9 none (BitVec.ofNat 16 l.index) (count 0)) ∧
        ∀ i c, s.lfr.bound = some i → recordAt s i = some c →
          framerReport r s = raiseNote 9 (some c.key) (BitVec.ofNat 16 l.index) (count 0))) ∧
  (∀ (s : State) (reason : CloseReason) (boundary : Position) (seen : Bool),
    let tone := (s.lfr.tail.filter (fun l => isBefore l.start boundary)).foldl (fun u l => commitLine l u) s
    let all := s.lfr.tail.foldl (fun u l => commitLine l u) s
    endByTone reason boundary seen s = finishImage reason seen { tone with lfr := { tone.lfr with tail := [] } } ∧
    endByFadeOrLimit reason s = finishImage reason false { all with lfr := { all.lfr with tail := [] } }) ∧
  (∀ (s : State) (reason : CloseReason) (seen : Bool),
    let idle : Lfr :=
      { state := .idle, startSeen := seen, history := s.lfr.history, darkRun := s.lfr.darkRun, firstPulse := none,
        rate := none, pulses := [], period := none, missCount := 0, phasingSince := none, zero := none, tLocal := none,
        line := none, tail := [], fadedCount := 0, bound := none, highest := none }
    let detail := BitVec.ofNat 16 (reasonCode reason + if s.lfr.startSeen then 256 else 0)
    (s.lfr.bound = none → finishImage reason seen s = { raiseNote 3 none detail s with lfr := idle }) ∧
    ∀ i c, s.lfr.bound = some i → recordAt s i = some c →
      let length := match s.lfr.highest with
        | none => 0
        | some h => (max 0 (min 2048 ((h : Int) + c.offset.getD 0 + 1))).toNat
      let queued := (enqueue ⟨.closeF c.key (BitVec.ofNat 16 length) (BitVec.ofNat 8 (reasonCode reason)), .cst, none, 0, [],
        false⟩ s).1
      let told := { c with
        bound := false
        announced := if length = 0 then c.announced else some (max (c.announced.getD 0) length) }
      finishImage reason seen s = { raiseNote 3 (some c.key) detail (closeSlot i reason { queued with
        cst := { queued.cst with slots := queued.cst.slots.set i (some told) } }) with lfr := idle })

/-- The length of every framed line lies within the rate's bounds, wherever Z lies and though positions wrap; the impulse count is the number of tested pixels that stand out from both known neighbours by more than 96; the copy a closing line forms stores each known level or 15, with U, source, origin and Q of the line's own figures (R23, R29, R30, R31, R43, R47, R51). -/
def Obligations.LinesScored : Prop :=
  (∀ (r : Rate) (z : FinePosition) (q n : Nat),
    let p := clampPeriod r q
    rateWords r - rateWords r / 100 - 1 ≤ wordsAfter (lineStart z p (n + 1)) (lineStart z p n) ∧
    wordsAfter (lineStart z p (n + 1)) (lineStart z p n) ≤ rateWords r + rateWords r / 100 + 1) ∧
  (∀ levels : List (Option Nat), 2 ≤ levels.length →
    impulseCount levels = ((List.range (levels.length - 2)).countP (fun k =>
      match levels[k]?.join, levels[k + 1]?.join, levels[k + 2]?.join with
      | some a, some p, some b => decide ((a + 96 < p ∧ b + 96 < p) ∨ (p + 96 < a ∧ p + 96 < b))
      | _, _, _ => false)) ∧
    impulseCount levels ≤ levels.length - 2) ∧
  (∀ (own : Receiver) (l : LineInProgress),
    let c := formCopy own l
    c.pixels.length = l.pixels.length ∧
    (∀ (k : Nat) (p : Nat × Nat), l.pixels[k]? = some p →
      c.pixels[k]? = some (if p.2 = 0 then (15 : BitVec 4) else BitVec.ofNat 4 (p.1 / p.2 / 16))) ∧
    c.u = l.pixels.countP (fun p => p.2 == 0) ∧ c.source = own ∧ c.origin = .localCopy ∧
    c.q = qualityOf (completenessTerm l.usable (wordsAfter l.next l.start)) (strengthTerm (lineMean l.strength l.usable))
      (impulseTerm (impulseCount (pixelLevels l.pixels))))

/-! ## Quality and the store -/

/-- The three terms of the line quality and Q itself with their bounds and ends, and the code of a quality with its bands (R44, R45, R46, R47, R48). -/
def Obligations.QualityAndCode : Prop :=
  ((∀ v n, 0 < n → v ≤ n →
    completenessTerm v n = 100 * v / n ∧ completenessTerm v n ≤ 100 ∧ (completenessTerm v n = 100 ↔ v = n) ∧
    (completenessTerm v n = 0 ↔ 100 * v < n)) ∧
  (∀ m, strengthTerm m = 100 * min m 40 / 40 ∧ (strengthTerm m = 0 ↔ m = 0) ∧ (40 ≤ m → strengthTerm m = 100)) ∧
  (∀ i, impulseTerm i = 100 - min 100 (100 * i / 64) ∧ (impulseTerm i = 0 ↔ 64 ≤ i) ∧ (impulseTerm i = 100 ↔ i = 0)) ∧
  (∀ a b c, a ≤ 100 → b ≤ 100 → c ≤ 100 →
    qualityOf a b c = a * b * c / 10000 ∧ qualityOf a b c ≤ 100 ∧
    (qualityOf a b c = 100 ↔ a = 100 ∧ b = 100 ∧ c = 100) ∧ (qualityOf a b c = 0 ↔ a * b * c < 10000))) ∧
  ((∀ q, q ≤ 100 → qualityCode q = 1 + 14 * q / 100 ∧ 1 ≤ qualityCode q ∧ qualityCode q ≤ 15) ∧
  (∀ p q, p ≤ q → qualityCode p ≤ qualityCode q) ∧
  [0, 7, 8, 14, 15, 21, 22, 28, 29, 35, 36, 42, 43, 49, 50, 57, 58, 64, 65, 71, 72, 78, 79, 85, 86, 92, 93, 99, 100].map
    qualityCode =
  [1, 1, 2, 2, 3, 3, 4, 4, 5, 5, 6, 6, 7, 7, 8, 8, 9, 9, 10, 10, 11, 11, 12, 12, 13, 13, 14, 14, 15])

/-- One offer to a slot whose key it names: a beaten or equal copy is discarded, a local one without a count; a page being free, the copy is stored on an absent line or replaces the one it beats, with map, page, free list, pool flag, dirty flag, held count, poor count, highest index, counters and reference time, and a slot in SWEEP found complete enters HELD with NOTE class 5 detail 1; with no page free it is dropped into counter 12 with one NOTE class 10 a run (R52, R54, R63, R66, R67, R69, R70, R71, R72, R73). -/
def Obligations.MergeRuleDecides : Prop :=
  ∀ (i : SlotNo) (k : Key) (j : Nat) (copy : Copy) (s : State) (c : Chart), recordAt s i = some c →
    let put (d : Chart) (u : State) : State := { u with cst := { u.cst with slots := u.cst.slots.set i (some d) } }
    let touched := put { c with lastReference := s.now } s
    let old := mapGet c.lineMap j
    let beats := ∀ e, old = some e → e.q + s.ssv.boot.margin ≤ copy.q
    let poor (q : Nat) : Nat := if q < s.ssv.boot.poorFloor then 1 else 0
    (c.answersTo k = true ↔ c.key = k ∨ c.otherKey = some k) ∧
    (c.answersTo k = false → mergeOffer i k j copy s = s) ∧
    (c.answersTo k = true → ¬ beats →
      mergeOffer i k j copy s = (if copy.origin = .peerCopy then bump 13 1 touched else touched)) ∧
    (c.answersTo k = true → beats → s.cst.free = [] →
      mergeOffer i k j copy s =
        if s.cst.poolReported then bump 12 1 touched
        else raiseNote 10 (some c.key) (BitVec.ofNat 16 j)
          { bump 12 1 touched with cst := { touched.cst with poolReported := true } }) ∧
    (∀ page rest, c.answersTo k = true → beats → s.cst.free = page :: rest →
      let back := (old.map (·.page)).toList
      let d := { c with
        lineMap := mapSet j ⟨page, copy.q, 1 + 14 * copy.q / 100, copy.source, copy.origin, copy.u⟩ c.lineMap
        lastReference := s.now
        dirty := if ownCode c j = 1 + 14 * copy.q / 100 then c.dirty else c.dirty ||| BitVec.twoPow 64 (j / 32)
        heldCount := if old = none then c.heldCount + 1 else c.heldCount
        poorCount := c.poorCount + poor copy.q - (match old with | some e => poor e.q | none => 0)
        highestHeld := some (max (c.highestHeld.getD 0) j) }
      let counted := bump (if copy.origin = .localCopy then 1 else 2) 1 { s with cst := { s.cst with
        slots := s.cst.slots.set i (some d)
        pages := Memory.write s.cst.pages page copy.pixels
        free := rest ++ back
        poolReported := if back ≠ [] ∧ 64 ≤ (rest ++ back).length then false else s.cst.poolReported } }
      let stored := if old = none then counted else bump 3 1 counted
      let length := match d.announced, d.highestHeld with
        | some n, _ => n
        | none, some h => h + 1
        | none, none => 0
      let complete := 1 ≤ length ∧
        ∀ x, x < length → ∃ e, mapGet d.lineMap x = some e ∧ s.ssv.boot.poorFloor ≤ e.q
      (c.state = .sweep → complete → mergeOffer i k j copy s = raiseNote 5 (some c.key) 1
        (put { d with state := .held, wantDue := none, sweepDeadline := none, used := true } stored)) ∧
      (c.state ≠ .sweep ∨ ¬ complete → mergeOffer i k j copy s = stored))

/-- The slot an allocation takes: the lowest FREE one, else by the second-chance pass of five visits: each visit moves the pointer on, passes a slot not HELD, clears a used flag, or evicts a HELD slot whose flag is clear with NOTE class 6 detail 1. So with no slot HELD, or with every HELD slot used and the first not HELD, the pass fails, the pointer one place on and those flags cleared; with every slot HELD and used it evicts the one it began with. The own key then taken is held by no slot, nor the one the sequence stands at after it (R56, R57, R77, R81). -/
def Obligations.AllocationFindsSlot : Prop :=
  (∀ s : State,
    (∀ i, lowestFree s = some i ↔ recordAt s i = none ∧ ∀ j, j < i → recordAt s j ≠ none) ∧
    (∀ i, lowestFree s = some i → findSlot s = (s, some i)) ∧
    (lowestFree s = none → findSlot s = secondChance 5 s)) ∧
  (∀ (s : State) (n : Nat) (c : Chart), recordAt s s.cst.evictPtr = some c →
    let i := s.cst.evictPtr
    let moved := { s with cst := { s.cst with evictPtr := i + 1 } }
    let cleared := { moved with cst := { moved.cst with slots := s.cst.slots.set i (some { c with used := false }) } }
    secondChance 0 s = (s, none) ∧
    (c.state ≠ .held → secondChance (n + 1) s = secondChance n moved) ∧
    (c.state = .held → c.used = true → secondChance (n + 1) s = secondChance n cleared) ∧
    (c.state = .held → c.used = false →
      secondChance (n + 1) s = (raiseNote 6 (some c.key) 1 (freeSlot i moved), some i))) ∧
  (∀ s : State,
    ((∀ i, ∃ c, recordAt s i = some c ∧ c.state ≠ .held) →
      secondChance 5 s = ({ s with cst := { s.cst with evictPtr := s.cst.evictPtr + 1 } }, none)) ∧
    ((∀ i, ∃ c, recordAt s i = some c ∧ (c.state = .held → c.used = true)) →
      (∃ c, recordAt s s.cst.evictPtr = some c ∧ c.state ≠ .held) →
      (secondChance 5 s).2 = none ∧ (secondChance 5 s).1.cst.evictPtr = s.cst.evictPtr + 1 ∧
      (secondChance 5 s).1 = { s with cst := { s.cst with
        evictPtr := s.cst.evictPtr + 1, slots := (secondChance 5 s).1.cst.slots } } ∧
      ∀ i c, recordAt s i = some c → recordAt (secondChance 5 s).1 i =
        some (if c.state = .held then { c with used := false } else c)) ∧
    ((∀ i, ∃ c, recordAt s i = some c ∧ c.state = .held ∧ c.used = true) →
      (secondChance 5 s).2 = some s.cst.evictPtr ∧ recordAt (secondChance 5 s).1 s.cst.evictPtr = none ∧
      (secondChance 5 s).1.cst.evictPtr = s.cst.evictPtr + 1 ∧
      ∀ i c, i ≠ s.cst.evictPtr → recordAt s i = some c →
        recordAt (secondChance 5 s).1 i = some { c with used := false })) ∧
  (∀ s : State, keyHeld s (ownKey s (nextSequence s)) = false ∧
    ∀ q, keyHeld (passSequence q s) (ownKey s (passSequence q s).cst.ownSequence) = false)

/-- Two transitions lie within ±8 lines exactly when they differ by less than eight and a half line periods, and the offset is the difference rounded half away from zero; of several slots the nearest is taken, the lower number winning a tie (R82, R83, R89, R90). -/
def Obligations.OffsetRounds : Prop :=
  (∀ (a b : Int) (r : Rate),
    ((offsetWithin8 a b r).isSome = true ↔ 2 * (a - b).natAbs < 17 * rateMs r) ∧
    ∀ o, offsetWithin8 a b r = some o →
      o.natAbs ≤ 8 ∧ 2 * (a - b - o * rateMs r).natAbs ≤ rateMs r ∧ (0 < a - b → 0 ≤ o) ∧ (a - b < 0 → o ≤ 0) ∧
      (2 * (a - b - o * rateMs r).natAbs = rateMs r → (a - b).natAbs < o.natAbs * rateMs r)) ∧
  (∀ (near : SlotNo → Option Int),
    (nearestSlot near = none ↔ ∀ i, near i = none) ∧
    ∀ i o, nearestSlot near = some (i, o) ↔ near i = some o ∧
      ∀ j p, near j = some p → o.natAbs < p.natAbs ∨ (o.natAbs = p.natAbs ∧ i ≤ j))

/-! ## Frames, runs and the queue -/

/-- Every frame the part builds is read back field for field from its bytes, and has a length its kind allows (R110, R179, R180, R181). -/
def Obligations.FrameLayoutsReadBack : Prop :=
  ∀ p : Payload, p.sized = true → readData p.kind p.bytes = some p ∧ lengthAllowed p.kind p.bytes.length = true

/-- The frame on the wire: the arbitration number, its eleven bits in front, 9n + 46 bits in all; one wrong bit among those the check covers never leaves the check sequence as it was. The receiver: bits are judged intact exactly when they are a whole frame, with the fields they spell; damaged at a recessive separator, at the last bit of a wrong check sequence, at a dominant end bit; and at no later bit again. That the damage is found at that bit and bits going on are judged as no frame is the model's, DEDUCED (notes/assumptions/15.md) and DESIGN CHOICE (notes/assumptions/26.md) (R99, R100, R179). -/
def Obligations.FramesOnTheWire : Prop :=
  (∀ (pr : BitVec 2) (sender : Station) (kind : BitVec 5) (data : List Byte),
    (arbitrationField pr sender kind).toNat = pr.toNat * 512 + sender.val * 32 + kind.toNat ∧
    (wireFrame (arbitrationField pr sender kind) data).length = 9 * data.length + 46 ∧
    (wireFrame (arbitrationField pr sender kind) data).take 12 = false :: fieldBits (arbitrationField pr sender kind)) ∧
  (∀ (before after : List Bool) (b : Bool),
    (before ++ b :: after).foldl checkStep 0xFFFF ≠ (before ++ (!b) :: after).foldl checkStep 0xFFFF) ∧
  (∀ (field : BitVec 11) (data : List Byte),
    wireFrame field data = false :: fieldBits field ++ packedBits field data ++ List.replicate 7 true ∧
    packedBits field data = (BitVec.ofNat 8 data.length :: data ++ bytes16 (checkSequence field data)).flatMap wireByte ∧
    checkSequence field data =
      (fieldBits field ++ (BitVec.ofNat 8 data.length :: data).flatMap fieldBits).foldl checkStep 0xFFFF) ∧
  (∀ (bits : List Bool) (pr : BitVec 2) (sender : Station) (kind : BitVec 5) (data : List Byte),
    judgeBits bits = .intact pr sender kind data ↔
      data.length ≤ 255 ∧ false :: bits = wireFrame (arbitrationField pr sender kind) data) ∧
  (∀ (field : BitVec 11) (data : List Byte), data.length ≤ 255 →
    (∀ k, k < data.length + 3 →
      judgeBits (fieldBits field ++ (packedBits field data).take (9 * k) ++ [true]) = .damaged) ∧
    (∀ check : BitVec 16, check ≠ checkSequence field data →
      judgeBits (fieldBits field ++ (BitVec.ofNat 8 data.length :: data ++ bytes16 check).flatMap wireByte) = .damaged) ∧
    (∀ m, m < 7 →
      judgeBits (fieldBits field ++ packedBits field data ++ List.replicate m true ++ [false]) = .damaged)) ∧
  (∀ (bits more : List Bool) (b : Bool), judgeBits bits ≠ .undecided → judgeBits (bits ++ b :: more) = .undecided)

/-- Pixels read back: the pool gives what was written to a page and no other page changes; encoded runs lay down the pixels they came from, 75 to 1,200 run bytes for a line; its fragments are one to five, index by index under one header, 240 run bytes each but the last, and together all its run bytes (R53, R65, R144, R145, R153). -/
def Obligations.PixelsReadBack : Prop :=
  (∀ (m : List (Nat × Pixels)) (page other : Nat) (p : Pixels), Memory.wf m →
    Memory.read (Memory.write m page p) page = p ∧
    (other ≠ page → Memory.read (Memory.write m page p) other = Memory.read m other)) ∧
  (∀ p : Pixels, decodeRuns (encodeRuns p) = p ∧
    (p.length = 1200 → 75 ≤ (encodeRuns p).length ∧ (encodeRuns p).length ≤ 1200)) ∧
  (∀ (key : Key) (index : Nat) (e : LineEntry) (p : Pixels), p.length = 1200 →
    let g := fragmentCount (encodeRuns p).length
    1 ≤ g ∧ g ≤ 5 ∧ (lineFragments key index e p).length = g ∧
    ∃ parts : List (List Byte), parts.flatten = encodeRuns p ∧ parts.length = g ∧
      ∀ n part, parts[n]? = some part →
        1 ≤ part.length ∧ part.length ≤ 240 ∧ (n + 1 < g → part.length = 240) ∧
        (lineFragments key index e p)[n]? = some
          (.lineF key (BitVec.ofNat 16 index) (BitVec.ofNat 4 g) (BitVec.ofNat 4 n) (BitVec.ofNat 8 e.q)
            (BitVec.ofNat 16 e.u) part))

/-- An attempt to build takes the head of the build list: a line no longer held goes; else its copy as it stands is encoded and offered as one group, taken whole the line leaves the list and the next is tried, refused the list waits as it stands. Requests on the queue, and a line's leaving of the list, bring an attempt only when an entry has left or the head has changed. When an attempt is made, one an act and none otherwise, is the model's, DEDUCED (notes/assumptions/18.md); that a line no longer held goes is the model's choice, since R143 has a build always find its copy (notes/assumptions/35.md) (R104, R142, R143, R145). -/
def Obligations.BuildAttempts : Prop :=
  (∀ s : State,
    let without (rest : List BuildLine) (u : State) : State := { u with xen := { u.xen with build := rest } }
    (s.xen.build = [] → tryBuild s = s) ∧
    (∀ l rest, s.xen.build = l :: rest →
      (heldCopy s l.key l.index = none → tryBuild s = tryBuild (without rest s)) ∧
      ∀ e pixels, heldCopy s l.key l.index = some (e, pixels) →
        let group := (lineFragments l.key l.index e pixels).map (fun p => (⟨p, .xen, none, 0, [], false⟩ : Entry))
        let taken := { s with slc := { s.slc with queue := s.slc.queue ++ group } }
        ((enqueueGroup group s).2 = true → tryBuild s = tryBuild (without rest taken)) ∧
        ((enqueueGroup group s).2 = false → tryBuild s = s))) ∧
  (∀ (s : State) (k : Key) (j : Nat) (e : LineEntry) (pixels : Pixels),
    heldCopy s k j = some (e, pixels) ↔ ∃ i c, slotOf s k = some i ∧ recordAt s i = some c ∧ mapGet c.lineMap j = some e ∧
      pixels = Memory.read s.cst.pages e.page) ∧
  (∀ before s : State,
    (s.slc.queue.length < before.slc.queue.length ∨ s.xen.build.head? ≠ before.xen.build.head? →
      retryBuild before s = tryBuild s) ∧
    (before.slc.queue.length ≤ s.slc.queue.length → s.xen.build.head? = before.xen.build.head? →
      retryBuild before s = s)) ∧
  (∀ (s : State) (sel : Entry → Bool) (r : Request),
    withdrawEntries sel r s = retryBuild s { s with slc := { s.slc with queue := requestEntries sel r s.slc.queue } })

/-- The frame the queue offers is the oldest entry of the lowest class that holds any; FRAME_START puts it on the wire on an IDLE line, not silent, and starts nothing otherwise (R101, R103, R108). -/
def Obligations.OfferedFrameStarts : Prop :=
  (∀ (q : List Entry) (n : Nat), offeredPlace q = some n ↔
    ∃ e, q[n]? = some e ∧
      (∀ d ∈ q, (kindClass e.payload.kind).toNat ≤ (kindClass d.payload.kind).toNat) ∧
      ∀ m d, m < n → q[m]? = some d → kindClass d.payload.kind ≠ kindClass e.payload.kind) ∧
  (∀ (s : State) (t : Nat), s.phase = .running → s.slc.role = .none →
    (∀ n, s.slc.lineState = .idle → s.slc.silent = none → offeredPlace s.slc.queue = some n →
      exec (.frameStart t) s = .next { s with
        clock := max s.clock t
        slc := { s.slc with
          lineState := .busy, recessiveRun := 0, rx := some [], role := .contending, sle := true, sltRecessive := false,
          queue := s.slc.queue.modify n (fun e => { e with onWire := true }) } }) ∧
    (s.slc.lineState ≠ .idle ∨ s.slc.silent ≠ none ∨ s.slc.queue = [] →
      exec (.frameStart t) s = .next { s with clock := max s.clock t }))

/-- A single frame is taken when the queue has room for its kind, else dropped into counter 13; a line group is taken whole or refused without a count; a NOTE is put to the queue when its mask flag is set; a counter stops at 65,535 and no other moves. An owner's request on its queued entries: others stay; the frame on the wire stays and keeps the request for its loss; a removal takes every other entry selected, a new key stands as chart key, NOTE key and within a descriptor, a withdrawn line leaves the mask while the codes stay as built (DEDUCED, notes/assumptions/33.md), and an emptied CLAIM leaves (R104, R105, R136, R175, R176). -/
def Obligations.QueueAndCounters : Prop :=
  ((∀ (e : Entry) (s : State),
    (s.slc.queue.length < 32 ∧ (e.payload.isLine = true → lineEntries s.slc.queue < 24) →
      enqueue e s = ({ s with slc := { s.slc with queue := s.slc.queue ++ [e] } }, true)) ∧
    (¬ (s.slc.queue.length < 32 ∧ (e.payload.isLine = true → lineEntries s.slc.queue < 24)) →
      enqueue e s = (bump 13 1 s, false))) ∧
  (∀ (es : List Entry) (s : State),
    (s.slc.queue.length + es.length ≤ 32 ∧ lineEntries s.slc.queue + es.length ≤ 24 ∧ s.slc.silent = none →
      enqueueGroup es s = ({ s with slc := { s.slc with queue := s.slc.queue ++ es } }, true)) ∧
    (¬ (s.slc.queue.length + es.length ≤ 32 ∧ lineEntries s.slc.queue + es.length ≤ 24 ∧ s.slc.silent = none) →
      enqueueGroup es s = (s, false))) ∧
  (∀ (n : Nat) (k : Option Key) (detail : BitVec 16) (s : State),
    raiseNote n k detail s =
      if s.ssv.boot.noteMask.getLsbD n then
        (enqueue ⟨.noteF (BitVec.ofNat 8 n) (BitVec.ofNat 8 s.ssv.boot.tag) (k.getD ⟨0xFF, 0xFF⟩) detail, .ssv, none, 0, [],
          false⟩ s).1
      else s)) ∧
  (∀ (n : Fin 16) (k : Nat) (s : State),
    bump n k s = { s with ssv := { s.ssv with counters := (bump n k s).ssv.counters } } ∧
    ∀ m : Fin 16, (bump n k s).ssv.counters[m] =
      if m = n then min 65535 (s.ssv.counters[m] + k) else s.ssv.counters[m]) ∧
  (∀ (sel : Entry → Bool),
    (∀ r p q, requestEntries sel r (p ++ q) = requestEntries sel r p ++ requestEntries sel r q) ∧
    (∀ r e, sel e = false → requestEntries sel r [e] = [e]) ∧
    (∀ r e, sel e = true → e.onWire = true → requestEntries sel r [e] = [{ e with waiting := e.waiting ++ [r] }]) ∧
    (∀ e, sel e = true → e.onWire = false → requestEntries sel .remove [e] = []) ∧
    (∀ old new e, sel e = true → e.onWire = false →
      requestEntries sel (.replaceKey old new) [e] = [{ e with payload := e.payload.replaceKey old new }]) ∧
    (∀ m e k base mask codes, sel e = true → e.onWire = false → e.payload = .claimF k base mask codes →
      requestEntries sel (.withdrawLines m) [e] =
        if mask &&& ~~~m = 0 then [] else [{ e with payload := .claimF k base (mask &&& ~~~m) codes }])) ∧
  (∀ (old new : Key) (p : Payload),
    let swap (k : Key) : Key := if k = old then new else k
    (p.replaceKey old new).kind = p.kind ∧ (p.replaceKey old new).chartKey = p.chartKey.map swap ∧
    (p.bytes.length = (p.replaceKey old new).bytes.length) ∧
    (∀ c tag k detail, p = .noteF c tag k detail → p.replaceKey old new = .noteF c tag (swap k) detail) ∧
    (∀ requester n d, p = .describeF requester n d →
      p.replaceKey old new = .describeF requester n { d with key := swap d.key, otherKey := swap d.otherKey }) ∧
    (∀ k, p.chartKey = some k → (p.replaceKey old new).bytes.drop 2 = p.bytes.drop 2) ∧
    (∀ requester n m, p = .describeNullF requester n m → p.replaceKey old new = p) ∧
    (p.kind ∈ [Kind.restartK, .askK, .rosterK, .reportK] → p.replaceKey old new = p))

/-! ## The share line's own commands -/

/-- LINE_IDLE and LINE_BUSY: the line turns IDLE only while no frame is read or sent; a dominant bit returns the recessive run to 0 and begins a frame unless the line is UNSYNCED or a frame is being read (the bits of a frame being read and its run stand as of the last event, notes/assumptions/14.md). ARBITRATION_LOST at a bit driven recessive: driving stops, the frame stays queued off the wire with its kept requests applied, the winner's frame is read on, nothing is counted. ARBITRATION_WON: the part is SENDING, and an OPEN takes its delay, at most 65,535, from the transition time of its entry (DEDUCED, notes/assumptions/17.md); receive frame, recessive run and SLT stand at the last arbitration bit (notes/assumptions/14.md), and line state, SLE, damage run and silent stay (R98, R101, R102, R105, R114). -/
def Obligations.LineAndArbitration : Prop :=
  (∀ (bits : List Bool) (n : Nat),
    recessiveAfter (List.replicate n true) = min 11 n ∧
    recessiveAfter (bits ++ false :: List.replicate n true) = min 11 n) ∧
  (∀ (s : State) (t : Nat), s.phase = .running →
    (s.slc.rx = none → s.slc.role = .none → s.slc.lineState ≠ .idle →
      exec (.lineIdle t) s =
        .next { s with clock := max s.clock t, slc := { s.slc with lineState := .idle, recessiveRun := 11 } }) ∧
    (s.slc.rx ≠ none ∨ s.slc.role ≠ .none ∨ s.slc.lineState = .idle →
      exec (.lineIdle t) s = .next { s with clock := max s.clock t }) ∧
    (s.slc.rx = none → s.slc.lineState ≠ .unsynced →
      exec (.lineBusy t) s = .next { s with
        clock := max s.clock t
        slc := { s.slc with lineState := .busy, recessiveRun := 0, rx := some [] } }) ∧
    (s.slc.rx ≠ none ∨ s.slc.lineState = .unsynced →
      exec (.lineBusy t) s = .next { s with clock := max s.clock t, slc := { s.slc with recessiveRun := 0 } })) ∧
  (∀ (s : State) (t bit : Nat) (e : Entry), s.phase = .running → s.slc.role = .contending →
    wireEntry s.slc.queue = some e → (fieldBits (entryArbitration s.ssv.own e))[bit]? = some true →
    let bits := (fieldBits (entryArbitration s.ssv.own e)).take bit ++ [false]
    let lost := { s with
      clock := max s.clock t
      slc := { s.slc with
        role := .none, sle := false, sltRecessive := true, rx := some bits, recessiveRun := 0,
        queue := s.slc.queue.filterMap (fun d =>
          if d.onWire then Entry.applyAll d.waiting { d with onWire := false, waiting := [] } else some d) } }
    ((∀ d ∈ s.slc.queue, d.onWire = true → d.waiting = []) →
      exec (.arbitrationLost t bit) s = .next lost ∧ lost.slc.queue.length = s.slc.queue.length) ∧
    (lost.slc.queue.length < s.slc.queue.length → exec (.arbitrationLost t bit) s = .next (tryBuild lost)) ∧
    (lost.slc.queue.length = s.slc.queue.length → exec (.arbitrationLost t bit) s = .next lost)) ∧
  (∀ (s : State) (t : Nat) (e : Entry), s.phase = .running → s.slc.role = .contending → wireEntry s.slc.queue = some e →
    let bits := fieldBits (entryArbitration s.ssv.own e)
    ∃ u, exec (.arbitrationWon t) s = .next u ∧ u = { s with clock := max s.clock t, slc := u.slc } ∧
      u.slc = { s.slc with
        role := .sending, rx := some bits, recessiveRun := recessiveAfter bits, sltRecessive := bits.getLastD true,
        queue := u.slc.queue } ∧
      u.slc.queue = s.slc.queue.map (fun d =>
        match d.onWire, d.payload with
        | true, .openF k tag rate _ =>
          { d with payload :=
              .openF k tag rate (BitVec.ofNat 16 (min 65535 ((max s.clock t + 352) / 1000 - d.transition))) }
        | _, _ => d))

/-- SEND_COMPLETION: when each outcome can come of the send, then that the entry leaves, counter 6 or 7 and the damage run follow, the builder hears of the room, and the completion goes to the owner; for CLOSE, TALLY, WANT, ROSTER, DESCRIBE, NOTE and REPORT it is counted only. That a damaged echo is counted in counter 5 too, a bit error not, is DEDUCED (notes/assumptions/12.md), and so is that a damaged echo, a dominant level at an end bit, is a bit error of R102, at which SLE falls with the role (notes/assumptions/34.md) (R99, R100, R101, R102, R106). -/
def Obligations.SendCompletes : Prop :=
  (∀ (own : Receiver) (e : Entry) (role : TxRole), e.payload.sized = true →
    let driven := entryBits own e
    (outcomePossible role driven .sent = true ↔ role = .sending) ∧
    (∀ ends, outcomePossible role driven (.damagedEcho ends) = true ↔
      role = .sending ∧ ∃ m, m < 7 ∧ ends = List.replicate m true ++ [false]) ∧
    (∀ b, outcomePossible role driven (.bitError b) = true ↔
      (role = .contending ∧ b < 11 ∧ driven[b]? = some false) ∨ (role = .sending ∧ 11 ≤ b ∧ b < driven.length))) ∧
  (∀ (s : State) (t : Nat) (outcome : SendOutcome) (e : Entry), s.phase = .running → wireEntry s.slc.queue = some e →
    outcomePossible s.slc.role (entryBits s.ssv.own e) outcome = true → (outcome ≠ .sent → s.slc.damageRun < 15) →
    ∃ v, exec (.sendCompletion t outcome) s =
        .next (ownerCompletion e (stampAt t s) (decide (outcome = .sent)) (tryBuild v)) ∧
      v.slc.queue = s.slc.queue.filter (fun d => !d.onWire) ∧ v.slc.role = .none ∧ v.slc.sle = false ∧
      v.slc.sltRecessive = true ∧ v.slc.silent = s.slc.silent ∧ v.lcu = s.lcu ∧ v.lfr = s.lfr ∧ v.cst = s.cst ∧
      v.xen = s.xen ∧ v.ssv = { s.ssv with counters := v.ssv.counters } ∧ v.clock = max s.clock t ∧ v.phase = s.phase ∧
      v.pending = s.pending ∧
      (outcome = .sent →
        v.slc.damageRun = 0 ∧ v.slc.lineState = .busy ∧ v.slc.rx = none ∧
        v.slc.recessiveRun = recessiveAfter (entryBits s.ssv.own e ++ List.replicate 7 true) ∧
        ∀ m : Fin 16, v.ssv.counters[m] = if m = 6 then min 65535 (s.ssv.counters[m] + 1) else s.ssv.counters[m]) ∧
      (∀ b, outcome = .bitError b →
        let read := (entryBits s.ssv.own e).take b ++ [!((entryBits s.ssv.own e).getD b false)]
        v.slc.damageRun = s.slc.damageRun + 1 ∧ v.slc.lineState = s.slc.lineState ∧
        v.slc.rx = some read ∧ v.slc.recessiveRun = recessiveAfter read ∧
        ∀ m : Fin 16, v.ssv.counters[m] = if m = 7 then min 65535 (s.ssv.counters[m] + 1) else s.ssv.counters[m]) ∧
      (∀ ends, outcome = .damagedEcho ends →
        v.slc.damageRun = s.slc.damageRun + 1 ∧ v.slc.lineState = .busy ∧ v.slc.rx = none ∧
        v.slc.recessiveRun = recessiveAfter (entryBits s.ssv.own e ++ ends) ∧
        ∀ m : Fin 16, v.ssv.counters[m] =
          if m = 5 ∨ m = 7 then min 65535 (s.ssv.counters[m] + 1) else s.ssv.counters[m])) ∧
  (∀ (e : Entry) (stamp : Nat) (sent : Bool) (s : State),
    e.payload.kind ∈ [Kind.closeK, .tallyK, .wantK, .rosterK, .describeK, .noteK, .reportK] →
    ownerCompletion e stamp sent s = s)

/-- What a completion means to the owner of an OPEN, a CLAIM and a LINE fragment: an OPEN moves the open request of the slot named while that slot carries its key, and SENT it raises NOTE class 0 in any case; a SENT CLAIM makes its PENDING lines ACTIVE for 2,000 ms, appends them to the build list in order, counts them in counter 8 and sets the builder to work, a DAMAGED one gives them up; the last LINE fragment SENT ends its claim and sets the slot's used flag, a DAMAGED one takes the others with it (R86, R141, R143, R146). -/
def Obligations.OwnersActOnCompletions : Prop :=
  (∀ (e : Entry) (stamp : Nat) (s : State),
    (∀ k tag rate delay i, e.payload = .openF k tag rate delay → e.slot = some i →
      (∀ c, recordAt s i = some c → c.key = k →
        ownerCompletion e stamp true s = raiseNote 0 (some k) delay (setOpenReq i .nothing s) ∧
        ownerCompletion e stamp false s = setOpenReq i (if c.state = .live then .owed else .nothing) s) ∧
      ((∀ c, recordAt s i = some c → c.key ≠ k) →
        ownerCompletion e stamp true s = raiseNote 0 (some k) delay s ∧ ownerCompletion e stamp false s = s)) ∧
    (∀ k base mask codes, e.payload = .claimF k base mask codes →
      ownerCompletion e stamp true s = tryBuild (activateLines k base.toNat stamp (maskPlaces mask) s) ∧
      ownerCompletion e stamp false s = { s with xen := { s.xen with claims := s.xen.claims.filter (fun c =>
        !(c.state == .pending && c.key == k && (maskPlaces mask).any (fun p => c.index == base.toNat + p))) } }) ∧
    (∀ k index count fragment q u runs, e.payload = .lineF k index count fragment q u runs →
      let ended := { s with xen := { s.xen with claims := s.xen.claims.filter (fun c =>
        !(c.state == .active && c.key == k && c.index == index.toNat)) } }
      (fragment.toNat + 1 ≠ count.toNat → ownerCompletion e stamp true s = s) ∧
      (fragment.toNat + 1 = count.toNat →
        (slotOf s k = none → ownerCompletion e stamp true s = ended) ∧
        ∀ i c, slotOf s k = some i → recordAt s i = some c →
          ownerCompletion e stamp true s = { ended with cst := { s.cst with
            slots := s.cst.slots.set i (some { c with used := true }) } }) ∧
      ownerCompletion e stamp false s = withdrawEntries (Entry.isFragmentOf k index.toNat) .remove ended)) ∧
  (∀ (s : State) (k : Key) (base stamp : Nat) (mask : BitVec 32),
    let places := maskPlaces mask
    let u := activateLines k base stamp places s
    let won := places.filter (fun p => s.xen.claims.any (fun c => c.state == .pending && c.key == k && c.index == base + p))
    (∀ p, p ∈ places ↔ p < 32 ∧ mask.getLsbD p = true) ∧ places.Pairwise (· < ·) ∧
    (won = [] → u = s) ∧
    (won ≠ [] → u = bump 8 won.length { s with xen := { s.xen with
      build := s.xen.build ++ won.map (fun p => ⟨k, base + p⟩)
      claims := s.xen.claims.map (fun c =>
        if c.state == .pending && c.key == k && won.any (fun p => c.index == base + p) then
          { c with state := .active, expiry := some (stamp + 2000) }
        else c) } }))

/-- The sixteenth DAMAGED completion in a row, taken to its owner first: silent for 10,000 ms, the damage run 0, every LINE fragment gone from the queue, every line that had one gone from claim table and build list, and NOTE class 12 with the number of fragments; SILENT_END: silent no, NOTE class 13, and the builder hears of the room. The line stands as after any send: read on as a receiver behind a bit error, BUSY with no frame being read behind a damaged echo. Counter 5 at a damaged echo and not at a bit error is DEDUCED (notes/assumptions/12.md), and so is that SLE and the role fall at a dominant end bit, as at any bit error (notes/assumptions/34.md) (R98, R102, R106, R107, R108, R149). -/
def Obligations.SilentModeEntersAndEnds : Prop :=
  (∀ (s : State) (t : Nat) (outcome : SendOutcome) (e : Entry), s.phase = .running → wireEntry s.slc.queue = some e →
    outcomePossible s.slc.role (entryBits s.ssv.own e) outcome = true → outcome ≠ .sent → s.slc.damageRun = 15 →
    ∃ v, v.slc.queue = s.slc.queue.filter (fun d => !d.onWire) ∧ v.slc.role = .none ∧ v.slc.sle = false ∧
      v.slc.sltRecessive = true ∧ v.slc.damageRun = 16 ∧ v.slc.silent = s.slc.silent ∧ v.lcu = s.lcu ∧ v.lfr = s.lfr ∧
      v.cst = s.cst ∧ v.xen = s.xen ∧ v.ssv = { s.ssv with counters := v.ssv.counters } ∧ v.clock = max s.clock t ∧
      v.phase = s.phase ∧ v.pending = s.pending ∧
      (∀ b, outcome = .bitError b →
        let read := (entryBits s.ssv.own e).take b ++ [!((entryBits s.ssv.own e).getD b false)]
        v.slc.lineState = s.slc.lineState ∧ v.slc.rx = some read ∧ v.slc.recessiveRun = recessiveAfter read) ∧
      (∀ ends, outcome = .damagedEcho ends →
        v.slc.lineState = .busy ∧ v.slc.rx = none ∧
        v.slc.recessiveRun = recessiveAfter (entryBits s.ssv.own e ++ ends)) ∧
      (∀ m : Fin 16, m ≠ 5 →
        v.ssv.counters[m] = if m = 7 then min 65535 (s.ssv.counters[m] + 1) else s.ssv.counters[m]) ∧
      (∀ b, outcome = .bitError b → v.ssv.counters[5] = s.ssv.counters[5]) ∧
      (∀ ends, outcome = .damagedEcho ends → v.ssv.counters[5] = min 65535 (s.ssv.counters[5] + 1)) ∧
      let w := ownerCompletion e (stampAt t s) false (tryBuild v)
      let abandoned (k : Key) (j : Nat) : Bool := w.slc.queue.any (fun d =>
        match d.payload with | .lineF k' i .. => k' == k && i.toNat == j | _ => false)
      exec (.sendCompletion t outcome) s = .next (raiseNote 12 none
        (BitVec.ofNat 16 (w.slc.queue.countP (fun d => d.payload.isLine)))
        { w with
          slc := { w.slc with
            silent := some (stampAt t s + 10000), damageRun := 0,
            queue := w.slc.queue.filter (fun d => !d.payload.isLine) }
          xen := { w.xen with
            claims := w.xen.claims.filter (fun c => !(c.state == .active && abandoned c.key c.index))
            build := w.xen.build.filter (fun l => !abandoned l.key l.index) } })) ∧
  (∀ (s : State) (t e : Nat), s.phase = .running → s.slc.silent = some e → e ≤ stampAt t s →
    exec (.silentEnd t) s = .next (tryBuild (raiseNote 13 none 0
      { s with clock := max s.clock t, slc := { s.slc with silent := none } })))

/-! ## Heard frames -/

/-- What every well-formed frame heard does first: line BUSY, sender present at the stamp, counter 4, every dirty flag at a receiver back from absence, the slot its key reaches referenced; DESCRIBE, NOTE and REPORT do only that. Which frames are heard is DEDUCED (notes/assumptions/13.md) (R80, R98, R111, R113, R121, R156). -/
def Obligations.HeardFrameMarks : Prop :=
  (∀ (t : Nat) (sender : Station) (p : Payload) (s : State), hears s sender →
    let b := heardBy t sender p s
    b.clock = max s.clock t ∧ b.phase = .running ∧ b.pending = s.pending ∧ b.lcu = s.lcu ∧ b.lfr = s.lfr ∧
    b.xen = s.xen ∧ b.cst = { s.cst with slots := b.cst.slots } ∧
    b.slc = { s.slc with
      lineState := .busy, rx := none,
      recessiveRun := recessiveAfter (fieldBits (kindField p.kind sender) ++ frameTail sender p) } ∧
    b.ssv = { s.ssv with
      peers := s.ssv.peers.set sender (some ⟨stampAt t s, (s.ssv.peers[sender]).bind (·.roster)⟩)
      counters := s.ssv.counters.set 4 (min 65535 (s.ssv.counters[4] + 1)) } ∧
    ∀ i, recordAt b i = (recordAt s i).map (fun c => { c with
      dirty := if s.ssv.peers[sender] = none ∧ sender.val < 8 then BitVec.allOnes 64 else c.dirty
      lastReference := if p.chartKey.bind (slotOf s) = some i then stampAt t s else c.lastReference })) ∧
  (∀ (t : Nat) (sender : Station) (p : Payload) (s : State), hears s sender → p.sized = true →
    p.kind ∈ [Kind.describeK, .noteK, .reportK] →
    exec (heardCommand t sender p) s = .next (heardBy t sender p s))

/-- A damaged frame is counted and goes to no block; a malformed one is counted and marks its sender; a clash is counted and noted in class 15 and marks nobody. Every frame's command, damaged, malformed, clash or heard, has no effect in reset and boot, and on an UNSYNCED line or during an own frame only lets time move on (DEDUCED, notes/assumptions/13.md); so does one whose bits are not the frame it names, as a heard frame's command under own number is not (the model's choice, notes/assumptions/26.md) (R98, R100, R109, R110, R111, R112, R115, R168, R169). -/
def Obligations.FramesNotDispatched : Prop :=
  (∀ (s : State) (t : Nat) (bits : List Bool), s.phase = .running →
    (s.slc.lineState ≠ .unsynced → s.slc.role = .none → judgeBits bits = .damaged →
      exec (.frameDamaged t bits) s = .next (bump 5 1 { s with
        clock := max s.clock t
        slc := { s.slc with lineState := .busy, rx := none, recessiveRun := recessiveAfter bits } })) ∧
    (s.slc.lineState = .unsynced ∨ s.slc.role ≠ .none ∨ judgeBits bits ≠ .damaged →
      exec (.frameDamaged t bits) s = .next { s with clock := max s.clock t })) ∧
  (∀ (s : State) (t : Nat) (pr : BitVec 2) (sender : Station) (kind : BitVec 5) (data : List Byte), hears s sender →
    frameFits pr kind data.length = false → data.length ≤ 255 →
    let field := arbitrationField pr sender kind
    ∃ u, exec (.frameMalformed t pr sender kind (tailBits field data)) s = .next u ∧ u.clock = max s.clock t ∧
      u.phase = s.phase ∧ u.pending = s.pending ∧ u.lcu = s.lcu ∧
      u.lfr = s.lfr ∧ u.xen = s.xen ∧ u.cst = { s.cst with slots := u.cst.slots } ∧
      u.slc = { s.slc with
        lineState := .busy, rx := none, recessiveRun := recessiveAfter (fieldBits field ++ tailBits field data) } ∧
      u.ssv = { s.ssv with
        peers := s.ssv.peers.set sender (some ⟨stampAt t s, (s.ssv.peers[sender]).bind (·.roster)⟩)
        counters := s.ssv.counters.set 5 (min 65535 (s.ssv.counters[5] + 1)) } ∧
      ∀ i, recordAt u i = (recordAt s i).map (fun c => { c with
        dirty := if s.ssv.peers[sender] = none ∧ sender.val < 8 then BitVec.allOnes 64 else c.dirty })) ∧
  (∀ (s : State) (t : Nat), s.phase = .running → s.slc.lineState ≠ .unsynced → s.slc.role = .none →
    (∀ (pr : BitVec 2) (kind : BitVec 5) (data : List Byte), data.length ≤ 255 →
      let field := arbitrationField pr (stationOf s.ssv.own) kind
      exec (.clash t pr kind (tailBits field data)) s =
        .next (raiseNote 15 none (BitVec.ofNat 16 (kind.toNat * 4 + pr.toNat))
          (bump 5 1 { s with
            clock := max s.clock t
            slc := { s.slc with
              lineState := .busy, rx := none,
              recessiveRun := recessiveAfter (fieldBits field ++ tailBits field data) } }))) ∧
    ∀ p : Payload, p.sized = true →
      exec (heardCommand t (stationOf s.ssv.own) p) s = .next { s with clock := max s.clock t }) ∧
  (∀ (s : State) (t : Nat) (pr : BitVec 2) (sender : Station) (kind : BitVec 5) (bits : List Bool),
    let heard : List (Instr × Kind) :=
      [(.openHeard t sender bits, .openK), (.closeHeard t sender bits, .closeK), (.dropHeard t sender bits, .dropK),
       (.tallyHeard t sender bits, .tallyK), (.wantHeard t sender bits, .wantK), (.claimHeard t sender bits, .claimK),
       (.lineHeard t sender bits, .lineK), (.restartHeard t sender bits, .restartK), (.askHeard t sender bits, .askK),
       (.rosterHeard t sender bits, .rosterK), (.infoHeard t .describe sender bits, .describeK),
       (.infoHeard t .note sender bits, .noteK), (.infoHeard t .report sender bits, .reportK)]
    let malformed := Instr.frameMalformed t pr sender kind bits
    let clash := Instr.clash t pr kind bits
    let moved := { s with clock := max s.clock t }
    (∀ c ∈ [.frameDamaged t bits, malformed, clash] ++ heard.map (·.1),
      (s.phase ≠ .running → exec c s = .next s) ∧
      (s.phase = .running → (s.slc.lineState = .unsynced ∨ s.slc.role ≠ .none) → exec c s = .next moved)) ∧
    (s.phase = .running →
      (∀ x ∈ heard, (∀ f, fateOf s.ssv.own (fieldBits (kindField x.2 sender) ++ bits) = some f → f.isHeard x.2 = false) →
        exec x.1 s = .next moved) ∧
      ((∀ f, fateOf s.ssv.own (fieldBits (arbitrationField pr sender kind) ++ bits) = some f → f.isMalformed = false) →
        exec malformed s = .next moved) ∧
      ((∀ f, fateOf s.ssv.own (fieldBits (arbitrationField pr (stationOf s.ssv.own) kind) ++ bits) = some f →
        f.isClash = false) → exec clash s = .next moved)))

/-- A heard OPEN with a foreign opener or rate code counts as malformed; another tag or a known key changes nothing more. With no slot to withdraw or share it is adopted in the slot an allocation finds, FREE or evicted: LIVE and unbound, T_peer the stamp less the delay, its want timer at 4,000 ms; with none to be found NOTE class 11 detail 2 and counter 13 follow (R56, R57, R58, R88, R91, R117). -/
def Obligations.OpenJudgedAndAdopted : Prop :=
  (∀ (s : State) (t : Nat) (sender : Station) (k : Key) (tag rate : Byte) (delay : BitVec 16), hears s sender →
    let p := Payload.openF k tag rate delay
    let b := heardBy t sender p s
    (2 < rate.toNat ∨ k.opener.toNat ≠ sender.val ∨ 7 < k.opener.toNat →
      exec (.openHeard t sender (frameTail sender p)) s = .next (bump 5 1 b)) ∧
    (rate.toNat ≤ 2 → k.opener.toNat = sender.val → k.opener.toNat ≤ 7 →
      tag.toNat ≠ s.ssv.boot.tag ∨ keyHeld s k = true → exec (.openHeard t sender (frameTail sender p)) s = .next b)) ∧
  (∀ (s : State) (t : Nat) (sender : Station) (k : Key) (tag rate : Byte) (delay : BitVec 16) (r : Rate),
    hears s sender → rateOfCode rate.toNat = some r → k.opener.toNat = sender.val → sender.val < 8 →
    tag.toNat = s.ssv.boot.tag → keyHeld s k = false →
    let p := Payload.openF k tag rate delay
    let b := heardBy t sender p s
    let tPeer : Int := (stampAt t s : Int) - delay.toNat
    let found := findSlot b
    (∀ j, withdrawCandidate s r tPeer j = none) → (∀ j, aliasCandidate s r tPeer j = none) →
    (∀ i, lowestFree s = some i → found = (b, some i)) ∧ (lowestFree s = none → found = secondChance 5 b) ∧
    (found.2 = none → exec (.openHeard t sender (frameTail sender p)) s = .next (bump 13 1 (raiseNote 11 (some k) 2 found.1))) ∧
    (∀ i, found.2 = some i →
      ∃ u, exec (.openHeard t sender (frameTail sender p)) s = .next u ∧
      recordAt u i = some
        { state := .live, key := k, otherKey := none, tag := s.ssv.boot.tag, rate := r, bound := false, offset := none,
          newest := none, localTransition := none, peerTransition := some tPeer, announced := none, highestHeld := none,
          heldCount := 0, poorCount := 0, used := false, lastReference := stampAt t s,
          wantDue := some (stampAt t s + 4000), sweepDeadline := none, closeReason := none, opened := stampAt t s,
          dirty := 0, lineMap := [] } ∧
      (∀ j, j ≠ i → recordAt u j = recordAt found.1 j) ∧
      u = { found.1 with
        cst := { found.1.cst with slots := u.cst.slots }
        xen := { found.1.xen with
          views := found.1.xen.views.set i (Vector.replicate 8 []), openReq := found.1.xen.openReq.set i .nothing } }))

/-- A heard OPEN within ±8 lines of an own OPEN still queued: that OPEN leaves the queue, the slot takes the heard key, the implied offset and T_peer and keeps binding, second key and lines; every queued frame, claim and build line under the given-up key takes the heard one, and NOTE class 1 carries it with detail offset + 8 + 256 (R89, R105, R137, R142). -/
def Obligations.OpenWithdraws : Prop :=
  (∀ (s : State) (r : Rate) (tPeer : Int) (i : SlotNo) (o : Int), withdrawCandidate s r tPeer i = some o ↔
    ∃ c tLocal, recordAt s i = some c ∧ s.xen.openReq[i] = .queued ∧ c.rate = r ∧ c.localTransition = some tLocal ∧
      offsetWithin8 tLocal tPeer r = some o) ∧
  ∀ (s : State) (t : Nat) (sender : Station) (k : Key) (tag rate : Byte) (delay : BitVec 16) (r : Rate) (i : SlotNo)
    (o : Int) (c : Chart),
    hears s sender → rateOfCode rate.toNat = some r → k.opener.toNat = sender.val → sender.val < 8 →
    tag.toNat = s.ssv.boot.tag → keyHeld s k = false →
    let p := Payload.openF k tag rate delay
    let b := heardBy t sender p s
    let tPeer : Int := (stampAt t s : Int) - delay.toNat
    nearestSlot (withdrawCandidate s r tPeer) = some (i, o) → recordAt b i = some c →
    let isOpen (e : Entry) : Bool := match e.payload with | .openF k' .. => e.slot == some i && k' == c.key | _ => false
    let out := retryBuild b { b with slc := { b.slc with queue := requestEntries isOpen .remove b.slc.queue } }
    exec (.openHeard t sender (frameTail sender p)) s = .next (raiseNote 1 (some k) (BitVec.ofInt 16 (o + 264)) { out with
      cst := { out.cst with
        slots := out.cst.slots.set i (some { c with key := k, offset := some o, peerTransition := some tPeer }) }
      xen := { out.xen with
        openReq := out.xen.openReq.set i .nothing
        claims := out.xen.claims.map (fun d => if d.key = c.key then { d with key := k } else d)
        build := out.xen.build.map (fun l => if l.key = c.key then { l with key := k } else l) }
      slc := { out.slc with queue := requestEntries (fun _ => true) (.replaceKey c.key k) out.slc.queue } })

/-- A heard OPEN within ±8 lines of a LIVE slot's transition, none withdrawing: a slot without a second key records it with NOTE class 2, and repeats its OPEN when its key is an own key, its open request QUEUED, or OWED at a refusal; a slot that has one ignores the OPEN. That the repeat's entry names the CST as the block that queued it is the model's reading (DEDUCED, notes/assumptions/32.md) (R84, R90, R92, R103). -/
def Obligations.OpenRecorded : Prop :=
  (∀ (s : State) (r : Rate) (tPeer : Int) (i : SlotNo) (o : Int), aliasCandidate s r tPeer i = some o ↔
    ∃ c, recordAt s i = some c ∧ c.state = .live ∧ c.rate = r ∧
      ∃ transition : Int, (if c.bound then c.localTransition.map (fun n => (n : Int)) else c.peerTransition) = some transition ∧
        offsetWithin8 transition tPeer r = some o) ∧
  ∀ (s : State) (t : Nat) (sender : Station) (k : Key) (tag rate : Byte) (delay : BitVec 16) (r : Rate) (i : SlotNo)
    (o : Int) (c : Chart),
    hears s sender → rateOfCode rate.toNat = some r → k.opener.toNat = sender.val → sender.val < 8 →
    tag.toNat = s.ssv.boot.tag → keyHeld s k = false →
    let p := Payload.openF k tag rate delay
    let b := heardBy t sender p s
    let tPeer : Int := (stampAt t s : Int) - delay.toNat
    (∀ j, withdrawCandidate s r tPeer j = none) → nearestSlot (aliasCandidate s r tPeer) = some (i, o) →
    recordAt b i = some c →
    let noted := raiseNote 2 (some c.key) (BitVec.ofNat 16 (k.opener.toNat * 256 + k.sequence.toNat))
      (setChart i (some { c with otherKey := some k }) b)
    let offer := enqueue ⟨.openF c.key (BitVec.ofNat 8 c.tag) (BitVec.ofNat 8 (rateCode c.rate)) 0, .cst, some i,
      c.localTransition.getD 0, [], false⟩ noted
    exec (.openHeard t sender (frameTail sender p)) s = .next (
      if c.otherKey ≠ none then b
      else if c.key.opener.toNat = s.ssv.own.val then
        { offer.1 with xen := { offer.1.xen with
          openReq := s.xen.openReq.set i (if offer.2 then .queued else .owed) } }
      else noted)

/-- A heard CLOSE: a content out of range counts as malformed; else the slot it reaches keeps the greater length, and only a LIVE unbound slot closes with the heard reason. A close: only a LIVE slot takes it; it enters HELD at once with NOTE class 5 detail 3 with sweep seconds 0 (for silence too: DEDUCED, notes/assumptions/16.md), else SWEEP with its deadline and NOTE class 4, and HELD behind that when every line below its length is held at the poor floor or above (R61, R62, R63, R64, R67, R68, R69, R84, R94, R96). -/
def Obligations.CloseHeard : Prop :=
  (∀ (s : State) (t : Nat) (sender : Station) (k : Key) (len : BitVec 16) (reason : Byte), hears s sender →
    let p := Payload.closeF k len reason
    let b := heardBy t sender p s
    (reason.toNat = 0 ∨ 5 < reason.toNat ∨ 2048 < len.toNat → exec (.closeHeard t sender (frameTail sender p)) s = .next (bump 5 1 b)) ∧
    (∀ r, reasonOfCode reason.toNat = some r → len.toNat ≤ 2048 →
      (slotOf s k = none → exec (.closeHeard t sender (frameTail sender p)) s = .next b) ∧
      ∀ i c, slotOf s k = some i → recordAt b i = some c →
        let told := if len.toNat = 0 then c else { c with announced := some (max (c.announced.getD 0) len.toNat) }
        (c.state = .live → c.bound = false →
          exec (.closeHeard t sender (frameTail sender p)) s = .next (closeSlot i r (setChart i (some told) b))) ∧
        (c.state ≠ .live ∨ c.bound = true →
          exec (.closeHeard t sender (frameTail sender p)) s = .next (setChart i (some told) b)))) ∧
  (∀ (s : State) (i : SlotNo) (r : CloseReason) (c : Chart), recordAt s i = some c →
    let secs := s.ssv.boot.sweepSeconds
    let length := match c.announced, c.highestHeld with
      | some n, _ => n
      | none, some h => h + 1
      | none, none => 0
    let complete := 1 ≤ length ∧ ∀ x, x < length → ∃ e, mapGet c.lineMap x = some e ∧ s.ssv.boot.poorFloor ≤ e.q
    let closed := { c with closeReason := some r, bound := false }
    let held (d : Chart) : Chart := { d with state := .held, wantDue := none, sweepDeadline := none, used := true }
    let swept := { closed with state := .sweep, sweepDeadline := some (s.now + secs * 1000) }
    let noted := raiseNote 4 (some c.key) (BitVec.ofNat 16 (reasonCode r)) (setChart i (some swept) (setOpenReq i .nothing s))
    (c.state ≠ .live → closeSlot i r s = s) ∧
    (c.state = .live → secs = 0 → closeSlot i r s =
      raiseNote 5 (some c.key) 3 (setChart i (some (held closed)) (setOpenReq i .nothing s))) ∧
    (c.state = .live → secs ≠ 0 → ¬ complete → closeSlot i r s = noted) ∧
    (c.state = .live → secs ≠ 0 → complete →
      closeSlot i r s = raiseNote 5 (some c.key) 1 (setChart i (some (held swept)) noted)))

/-- A heard DROP frees the HELD slot its key reaches, with NOTE class 6 detail 2, and leaves any other. Freeing returns the slot's pages in index order, ends a run of pool-empty drops at 64 free pages, clears record, view, open request, claims, build lines and receptions, removes its OPEN and its TALLY, WANT, CLAIM and LINE frames from the queue, and leaves all else, but that the builder may then put the lines still waiting to the queue: one attempt behind all removals is the model's reading (DEDUCED, notes/assumptions/18.md) (R54, R76, R77, R104, R134, R143, R154). -/
def Obligations.DropFreesHeldSlot : Prop :=
  (∀ (s : State) (t : Nat) (sender : Station) (k : Key), hears s sender →
    let p := Payload.dropF k
    let b := heardBy t sender p s
    (slotOf s k = none → exec (.dropHeard t sender (frameTail sender p)) s = .next b) ∧
    ∀ i c, slotOf s k = some i → recordAt b i = some c →
      (c.state ≠ .held → exec (.dropHeard t sender (frameTail sender p)) s = .next b) ∧
      (c.state = .held → exec (.dropHeard t sender (frameTail sender p)) s = .next (raiseNote 6 (some c.key) 2 (freeSlot i b)))) ∧
  (∀ (s : State) (i : SlotNo) (c : Chart), recordAt s i = some c →
    let pages := c.lineMap.map (fun e => e.2.page)
    let free := s.cst.free ++ pages
    let goes (e : Entry) : Bool :=
      match e.payload with
      | .openF k .. => e.slot == some i && k == c.key
      | .tallyF k .. | .wantF k .. | .claimF k .. | .lineF k .. => c.answersTo k
      | _ => false
    freeSlot i s = retryBuild s { s with
      cst := { s.cst with
        slots := s.cst.slots.set i none
        free := free
        poolReported := if pages ≠ [] ∧ 64 ≤ free.length then false else s.cst.poolReported }
      xen := { s.xen with
        views := s.xen.views.set i (Vector.replicate 8 [])
        openReq := s.xen.openReq.set i .nothing
        claims := s.xen.claims.filter (fun d => !c.answersTo d.key)
        build := s.xen.build.filter (fun l => !c.answersTo l.key)
        assemblies := s.xen.assemblies.filter (fun a => !c.answersTo a.key) }
      slc := { s.slc with queue := requestEntries goes .remove s.slc.queue } })

/-- A heard TALLY overwrites the sender's codes of its 32 lines in the view of the slot it reaches, whatever stood there, and no other code; a viewer's is ignored, a bad base counted, an unknown key ignored (R118). -/
def Obligations.TallyOverwritesColumn : Prop :=
  ∀ (s : State) (t : Nat) (sender : Station) (k : Key) (base : BitVec 16) (codes : List (BitVec 4)), hears s sender →
    codes.length = 32 →
    let p := Payload.tallyF k base codes
    let b := heardBy t sender p s
    (8 ≤ sender.val → exec (.tallyHeard t sender (frameTail sender p)) s = .next b) ∧
    (sender.val < 8 → ¬ (base.toNat % 32 = 0 ∧ base.toNat ≤ 2016) →
      exec (.tallyHeard t sender (frameTail sender p)) s = .next (bump 5 1 b)) ∧
    (sender.val < 8 → base.toNat % 32 = 0 → base.toNat ≤ 2016 → slotOf s k = none →
      exec (.tallyHeard t sender (frameTail sender p)) s = .next b) ∧
    (∀ (r : Receiver) (i : SlotNo), stationOf r = sender → base.toNat % 32 = 0 → base.toNat ≤ 2016 → slotOf s k = some i →
      columnWf (s.xen.views[i])[r] →
      ∃ u, exec (.tallyHeard t sender (frameTail sender p)) s = .next u ∧ u = { b with xen := { b.xen with views := u.xen.views } } ∧
        (∀ j c, codes[j]? = some c → peerCode u i r (base.toNat + j) = c.toNat) ∧
        (∀ j, j < base.toNat ∨ base.toNat + 32 ≤ j → peerCode u i r j = peerCode s i r j) ∧
        ∀ (m : SlotNo) (x : Receiver), m ≠ i ∨ x ≠ r → (u.xen.views[m])[x] = (s.xen.views[m])[x])

/-- A heard WANT that names own station sets the slot's used flag and is answered: the held lines two codes above the have codes and unclaimed, as far as the claim table has room, become PENDING and one CLAIM is queued; dropped lines count in counter 13 (R130, R135, R136). -/
def Obligations.WantAnswered : Prop :=
  ∀ (s : State) (t : Nat) (sender : Station) (k : Key) (base : BitVec 16) (mask : BitVec 32) (have' : List (BitVec 4))
    (stations : BitVec 16), hears s sender → have'.length = 32 →
    let p := Payload.wantF k base mask have' stations
    let b := heardBy t sender p s
    (¬ (base.toNat % 32 = 0 ∧ base.toNat ≤ 2016) → exec (.wantHeard t sender (frameTail sender p)) s = .next (bump 5 1 b)) ∧
    (base.toNat % 32 = 0 → base.toNat ≤ 2016 → slotOf s k = none ∨ stations.getLsbD s.ssv.own.val = false →
      exec (.wantHeard t sender (frameTail sender p)) s = .next b) ∧
    (∀ i c, base.toNat % 32 = 0 → base.toNat ≤ 2016 → stations.getLsbD s.ssv.own.val = true → slotOf s k = some i →
      recordAt b i = some c →
      let answer := (List.range 32).filter (fun n => mask.getLsbD n && (mapGet c.lineMap (base.toNat + n)).isSome &&
        decide ((have'.getD n 0).toNat + 2 ≤ ownCode c (base.toNat + n)) &&
        !s.xen.claims.any (fun d => d.key == c.key && d.index == base.toNat + n))
      let taken := answer.take (64 - s.xen.claims.length)
      let used := bump 13 (answer.length - taken.length) (setChart i (some { c with used := true }) b)
      let offer := enqueue (newEntry (.claimF c.key base (lineMask taken) (blockCodes c base.toNat)) .xen) used
      exec (.wantHeard t sender (frameTail sender p)) s = .next (
        if taken = [] then used
        else if offer.2 then
          { offer.1 with xen := { offer.1.xen with claims := s.xen.claims ++ taken.map (fun n =>
              ⟨c.key, base.toNat + n, s.ssv.own, some (ownCode c (base.toNat + n)), .pending, none⟩) } }
        else offer.1))

/-- A heard CLAIM is checked, then taken line by line in ascending index: an own PENDING entry stands at three codes above, else yields with counter 9; a HEARD entry is made for 2,000 ms once per claimant, or counts in counter 13; the code goes to the view. That a renewed entry goes to the table's end is the model's choice (notes/assumptions/19.md) (R119, R138, R139, R140). -/
def Obligations.ClaimsTaken : Prop :=
  (∀ (s : State) (t : Nat) (sender : Station) (k : Key) (base : BitVec 16) (mask : BitVec 32) (codes : List (BitVec 4)),
    hears s sender → codes.length = 32 →
    let p := Payload.claimF k base mask codes
    let b := heardBy t sender p s
    (8 ≤ sender.val → exec (.claimHeard t sender (frameTail sender p)) s = .next b) ∧
    (sender.val < 8 → ¬ (base.toNat % 32 = 0 ∧ base.toNat ≤ 2016) ∨ mask = 0 →
      exec (.claimHeard t sender (frameTail sender p)) s = .next (bump 5 1 b)) ∧
    (sender.val < 8 → base.toNat % 32 = 0 → base.toNat ≤ 2016 → mask ≠ 0 → slotOf s k = none →
      exec (.claimHeard t sender (frameTail sender p)) s = .next b) ∧
    (∀ (r : Receiver) i c, stationOf r = sender → base.toNat % 32 = 0 → base.toNat ≤ 2016 → mask ≠ 0 →
      slotOf s k = some i → recordAt s i = some c →
      exec (.claimHeard t sender (frameTail sender p)) s = .next (
        ((List.range 32).filter (mask.getLsbD ·)).foldl (fun u n =>
          setPeerCode i r (base.toNat + n) (codes.getD n 0).toNat
            (recordHeard c.key (base.toNat + n) r (stampAt t s)
              (yieldPending c.key base.toNat n (codes.getD n 0).toNat u))) b))) ∧
  ((∀ (key : Key) (base n code : Nat) (s : State),
    (s.xen.claims.find? (Claim.isPendingOf key (base + n)) = none → yieldPending key base n code s = s) ∧
    (∀ d, s.xen.claims.find? (Claim.isPendingOf key (base + n)) = some d → code + 3 ≤ d.code.getD 0 →
      yieldPending key base n code s = s) ∧
    (∀ d, s.xen.claims.find? (Claim.isPendingOf key (base + n)) = some d → d.code.getD 0 < code + 3 →
      yieldPending key base n code s = bump 9 1 (withdrawEntries (Entry.isClaimOf key base)
        (.withdrawLines (BitVec.twoPow 32 n))
        { s with xen := { s.xen with
            claims := s.xen.claims.filter (fun c => !(c.state == .pending && c.key == key && c.index == base + n)) } }))) ∧
  ∀ (key : Key) (j : Nat) (r : Receiver) (stamp : Nat) (s : State),
    let others := s.xen.claims.filter (fun c => !(c.state == .heard && c.key == key && c.index == j && c.claimant == r))
    (others.length < 64 → recordHeard key j r stamp s =
      { s with xen := { s.xen with claims := others ++ [⟨key, j, r, none, .heard, some (stamp + 2000)⟩] } }) ∧
    (64 ≤ others.length → recordHeard key j r stamp s = bump 13 1 s))

/-- A heard LINE of a viewer or of an unknown key is ignored, a header out of range counted; before its last fragment, index 0 begins or restarts the reception (a full table discards its oldest), the next index with equal count, Q and U grows it, any other ends it into counter 5 (R150, R151, R152). -/
def Obligations.LineFragmentsJudged : Prop :=
  (∀ (s : State) (t : Nat) (sender : Station) (k : Key) (index : BitVec 16) (count fragment : BitVec 4) (q : Byte)
    (u : BitVec 16) (runs : List Byte), hears s sender → 1 ≤ runs.length → runs.length ≤ 240 →
    let p := Payload.lineF k index count fragment q u runs
    let b := heardBy t sender p s
    let bad := count.toNat = 0 ∨ 5 < count.toNat ∨ count.toNat ≤ fragment.toNat ∨ 2047 < index.toNat
    (8 ≤ sender.val → exec (.lineHeard t sender (frameTail sender p)) s = .next b) ∧
    (sender.val < 8 → bad → exec (.lineHeard t sender (frameTail sender p)) s = .next (bump 5 1 b)) ∧
    (sender.val < 8 → ¬ bad → slotOf s k = none → exec (.lineHeard t sender (frameTail sender p)) s = .next b)) ∧
  (∀ (s : State) (t : Nat) (r : Receiver) (k : Key) (index : BitVec 16) (count fragment : BitVec 4) (q : Byte)
    (u : BitVec 16) (runs : List Byte) (i : SlotNo),
    hears s (stationOf r) → 1 ≤ runs.length → runs.length ≤ 240 → fragment.toNat < count.toNat → count.toNat ≤ 5 →
    index.toNat ≤ 2047 → slotOf s k = some i →
    let p := Payload.lineF k index count fragment q u runs
    let b := heardBy t (stationOf r) p s
    let run := exec (.lineHeard t (stationOf r) (frameTail (stationOf r) p)) s
    let whose (a : Assembly) : Bool := a.sender == r && a.key == k && a.index == index.toNat
    let first : Assembly := ⟨r, k, index.toNat, count.toNat, 1, q.toNat, u.toNat, runs, stampAt t s⟩
    (fragment = 0 → 2 ≤ count.toNat → s.xen.assemblies.any whose = true →
      run = .next { b with xen := { b.xen with
        assemblies := s.xen.assemblies.map (fun a => if whose a then first else a) } }) ∧
    (fragment = 0 → 2 ≤ count.toNat → s.xen.assemblies.any whose = false → s.xen.assemblies.length < 6 →
      run = .next { b with xen := { b.xen with assemblies := s.xen.assemblies ++ [first] } }) ∧
    (∀ n old, fragment = 0 → 2 ≤ count.toNat → s.xen.assemblies.any whose = false → s.xen.assemblies.length = 6 →
      s.xen.assemblies[n]? = some old → (∀ a ∈ s.xen.assemblies, old.start ≤ a.start) →
      (∀ m a, m < n → s.xen.assemblies[m]? = some a → old.start < a.start) →
      run = .next { (bump 5 1 b) with xen := { b.xen with assemblies := s.xen.assemblies.eraseIdx n ++ [first] } }) ∧
    (fragment ≠ 0 → s.xen.assemblies.find? whose = none → run = .next (bump 5 1 b)) ∧
    (∀ a, fragment ≠ 0 → s.xen.assemblies.find? whose = some a →
      (fragment.toNat = a.next → count.toNat = a.count → q.toNat = a.q → u.toNat = a.u → a.next + 1 < a.count →
        run = .next { b with xen := { b.xen with assemblies := s.xen.assemblies.map (fun x =>
          if whose x then { x with next := a.next + 1, bytes := a.bytes ++ runs } else x) } }) ∧
      (¬ (fragment.toNat = a.next ∧ count.toNat = a.count ∧ q.toNat = a.q ∧ u.toNat = a.u) →
        run = .next (bump 5 1 { b with xen := { b.xen with
          assemblies := s.xen.assemblies.filter (fun x => !whose x) } }))))

/-- A LINE completes at its only fragment, or at the accepted last one with the bytes received before: the claimant's HEARD entry and the reception go; 1,200 pixels with Q and U in range are offered to the merge rule and the sender's code follows, anything else counts in counter 5 (R52, R120, R151, R152, R153). -/
def Obligations.LineCompletes : Prop :=
  ∀ (s : State) (t : Nat) (r : Receiver) (k : Key) (index : BitVec 16) (count fragment : BitVec 4) (q : Byte)
    (u : BitVec 16) (runs before : List Byte) (i : SlotNo) (c : Chart),
    hears s (stationOf r) → 1 ≤ runs.length → runs.length ≤ 240 → index.toNat ≤ 2047 → count.toNat ≤ 5 →
    slotOf s k = some i → recordAt s i = some c →
    let whose (a : Assembly) : Bool := a.sender == r && a.key == k && a.index == index.toNat
    (count = 1 ∧ fragment = 0 ∧ before = []) ∨
      (∃ a, s.xen.assemblies.find? whose = some a ∧ fragment.toNat = a.next ∧ 1 ≤ a.next ∧ a.next + 1 = count.toNat ∧
        a.count = count.toNat ∧ a.q = q.toNat ∧ a.u = u.toNat ∧ a.bytes = before) →
    let p := Payload.lineF k index count fragment q u runs
    let b := heardBy t (stationOf r) p s
    let bytes := before ++ runs
    let ended := { b with xen := { b.xen with
      claims := s.xen.claims.filter (fun d =>
        !(d.state == .heard && d.key == c.key && d.index == index.toNat && d.claimant == r))
      assemblies := s.xen.assemblies.filter (fun a => !whose a) } }
    ((decodeRuns bytes).length = 1200 → q.toNat ≤ 100 → u.toNat ≤ 1200 →
      exec (.lineHeard t (stationOf r) (frameTail (stationOf r) p)) s = .next (setPeerCode i r index.toNat (1 + 14 * q.toNat / 100)
        (mergeOffer i k index.toNat ⟨decodeRuns bytes, q.toNat, u.toNat, r, .peerCopy⟩ ended))) ∧
    (¬ ((decodeRuns bytes).length = 1200 ∧ q.toNat ≤ 100 ∧ u.toNat ≤ 1200) →
      exec (.lineHeard t (stationOf r) (frameTail (stationOf r) p)) s = .next (bump 5 1 ended))

/-- A RESTART whose mask names own station is a link restart: exchange state and queue cleared, every dirty flag set, open requests owed, only the sender present, a ROSTER queued; LCU, framer, charts, counters, timers and configuration carry through. One that does not name it only marks its sender (R97, R116, R133, R155, R165, R166). -/
def Obligations.LinkRestartClearsExchange : Prop :=
  ∀ (s : State) (t : Nat) (sender : Station) (mask : BitVec 16), hears s sender →
    let p := Payload.restartF mask
    (mask.getLsbD s.ssv.own.val = false →
      exec (.restartHeard t sender (frameTail sender p)) s = .next (heardBy t sender p s)) ∧
    (mask.getLsbD s.ssv.own.val = true → ∃ u, exec (.restartHeard t sender (frameTail sender p)) s = .next u ∧
      u.lcu = s.lcu ∧ u.lfr = s.lfr ∧ u.clock = max s.clock t ∧ u.pending = s.pending ∧
      u.cst = { s.cst with slots := u.cst.slots } ∧
      (∀ i, recordAt u i = (recordAt s i).map (fun c => { c with dirty := BitVec.allOnes 64 })) ∧
      u.xen = { s.xen with views := u.xen.views, openReq := u.xen.openReq, claims := [], build := [], assemblies := [] } ∧
      (∀ (i : SlotNo) (r : Receiver), (u.xen.views[i])[r] = []) ∧
      (∀ i : SlotNo, u.xen.openReq[i] =
        if s.xen.openReq[i] = .queued then
          (if (recordAt s i).any (fun c => c.state == .live) then .owed else .nothing)
        else s.xen.openReq[i]) ∧
      u.slc = { s.slc with
        lineState := .busy, rx := none, recessiveRun := u.slc.recessiveRun, silent := none, damageRun := 0,
        queue := [newEntry (rosterFrame s) .ssv] } ∧
      u.ssv = { s.ssv with
        peers := u.ssv.peers
        counters := s.ssv.counters.set 4 (min 65535 (s.ssv.counters[4] + 1)) } ∧
      ∀ st : Station, u.ssv.peers[st] = if st = sender then some ⟨stampAt t s, none⟩ else none)

/-- A heard ROSTER: kind and tag that fit the sender go into its entry, others count in counter 5. A heard ASK of own station: the k-th slot not FREE is described and its used flag set, a higher index gets a null DESCRIBE (R157, R162, R163, R164, R181). -/
def Obligations.RosterAndAskServed : Prop :=
  (∀ (s : State) (t : Nat) (sender : Station) (kind tag a b c d e f : Byte), hears s sender →
    let p := Payload.rosterF kind tag a b c d e f
    let h := heardBy t sender p s
    let run := exec (.rosterHeard t sender (frameTail sender p)) s
    (kind = 1 → sender.val < 8 → 1 ≤ tag.toNat → tag.toNat ≤ 15 →
      run = .next { h with ssv := { h.ssv with
        peers := s.ssv.peers.set sender (some ⟨stampAt t s, some (.receiver, tag.toNat)⟩) } }) ∧
    (kind = 2 → 8 ≤ sender.val → tag.toNat ≤ 15 →
      run = .next { h with ssv := { h.ssv with
        peers := s.ssv.peers.set sender (some ⟨stampAt t s, some (.viewer, tag.toNat)⟩) } }) ∧
    (¬ (kind = 1 ∧ sender.val < 8 ∧ 1 ≤ tag.toNat ∧ tag.toNat ≤ 15) → ¬ (kind = 2 ∧ 8 ≤ sender.val ∧ tag.toNat ≤ 15) →
      run = .next (bump 5 1 h))) ∧
  (∀ (s : State) (t : Nat) (sender : Station) (target k : Byte), hears s sender →
    let p := Payload.askF target k
    let b := heardBy t sender p s
    let charts := [0, 1, 2, 3].filter (fun i : SlotNo => (recordAt s i).isSome)
    let requester : Byte := BitVec.ofNat 8 sender.val
    (target.toNat ≠ s.ssv.own.val → exec (.askHeard t sender (frameTail sender p)) s = .next b) ∧
    (target.toNat = s.ssv.own.val → charts.length ≤ k.toNat →
      exec (.askHeard t sender (frameTail sender p)) s =
        .next (enqueue (newEntry (.describeNullF requester k (BitVec.ofNat 8 charts.length)) .ssv) b).1) ∧
    (∀ i c, target.toNat = s.ssv.own.val → charts[k.toNat]? = some i → recordAt b i = some c →
      let length := match c.announced, c.highestHeld with
        | some n, _ => n
        | none, some h => h + 1
        | none, none => 0
      let known := [0, 1, 2, 3, 4, 5, 6, 7].filter (fun r : Receiver =>
        r != s.ssv.own && ((s.xen.views[i])[r]).any (fun e => e.2 != 0))
      let chart : Descriptor :=
        { key := c.key, otherKey := c.otherKey.getD ⟨0xFF, 0xFF⟩, tag := BitVec.ofNat 8 c.tag,
          rate := BitVec.ofNat 8 (rateCode c.rate),
          state := BitVec.ofNat 8 (16 * chartStateCode c.state + (match c.closeReason with | some r => reasonCode r | none => 0)),
          length := BitVec.ofNat 16 length, heldCount := BitVec.ofNat 16 c.heldCount,
          poorCount := BitVec.ofNat 16 c.poorCount, holders := BitVec.ofNat 8 (1 + known.length),
          age := BitVec.ofNat 8 (min 255 ((stampAt t s - c.opened) / 60000)) }
      exec (.askHeard t sender (frameTail sender p)) s =
        .next (enqueue (newEntry (.describeF requester k chart) .ssv) (setChart i (some { c with used := true }) b)).1))

/-! ## The timers -/

/-- A timer's command before its time lets station time move on and does nothing else; so do one for a timer that does not run and one for an entry that is not there (the model's choice for such commands, notes/assumptions/3.md). In reset and boot, when station time does not run and the share line is neither read nor driven, a timer's command and a share line command change nothing; those of an own frame with no part in one, as every such state has it (StepKeepsWire) (R115, R168, R169). -/
def Obligations.TimersWaitForTheirTime : Prop :=
  (∀ (s : State) (t : Nat), s.phase = .running →
    let moved : Host.Outcome State Fault Refusal := .next { s with clock := max s.clock t }
    ((∀ e, s.lcu.gainDownEnd = some e → stampAt t s < e) → exec (.gainDownEnd t) s = moved) ∧
    ((∀ p, s.lfr.state = .phasing → s.lfr.phasingSince = some p → stampAt t s < p + 20000) →
      exec (.phasingTimeout t) s = moved) ∧
    ((∀ e, s.slc.silent = some e → stampAt t s < e) → exec (.silentEnd t) s = moved) ∧
    (stampAt t s < s.xen.tallyDue → exec (.tallyExpiry t) s = moved) ∧
    (stampAt t s < s.ssv.rosterDue → exec (.rosterExpiry t) s = moved) ∧
    (stampAt t s < s.ssv.minuteDue → exec (.minuteExpiry t) s = moved) ∧
    (∀ i, (∀ c d, recordAt s i = some c → c.wantDue = some d → stampAt t s < d) → exec (.wantTimerExpiry t i) s = moved) ∧
    (∀ i, (∀ c d, recordAt s i = some c → c.state = .sweep → c.sweepDeadline = some d → stampAt t s < d) →
      exec (.sweepDeadline t i) s = moved) ∧
    (∀ i, (∀ c, recordAt s i = some c → c.state = .live → c.bound = false → stampAt t s < c.lastReference + 120000) →
      exec (.silenceClose t i) s = moved) ∧
    (∀ st : Station, (∀ p, s.ssv.peers[st] = some p → stampAt t s < p.lastHeard + 150000) →
      exec (.peerAbsent t st) s = moved) ∧
    (∀ (k : Key) (j : Nat), (∀ c ∈ s.xen.claims, c.state = .active → c.key = k → c.index = j →
      ∀ e, c.expiry = some e → stampAt t s < e) → exec (.claimLapse t k j) s = moved) ∧
    (∀ (k : Key) (j : Nat) (r : Receiver), (∀ c ∈ s.xen.claims, c.state = .heard → c.key = k → c.index = j →
      c.claimant = r → ∀ e, c.expiry = some e → stampAt t s < e) → exec (.heardLapse t k j r) s = moved) ∧
    (∀ (r : Receiver) (k : Key) (j : Nat), (∀ a ∈ s.xen.assemblies, a.sender = r → a.key = k → a.index = j →
      stampAt t s < a.start + 2000) → exec (.reassemblyTimeout t r k j) s = moved)) ∧
  (∀ (s : State) (t j bit : Nat) (i : SlotNo) (st : Station) (k : Key) (r : Receiver) (outcome : SendOutcome),
    s.phase ≠ .running →
    (∀ c ∈ [Instr.gainDownEnd t, .phasingTimeout t, .silentEnd t, .tallyExpiry t, .rosterExpiry t, .minuteExpiry t,
        .wantTimerExpiry t i, .sweepDeadline t i, .silenceClose t i, .peerAbsent t st, .claimLapse t k j,
        .heardLapse t k j r, .reassemblyTimeout t r k j, .lineIdle t, .lineBusy t, .frameStart t],
      exec c s = .next s) ∧
    (s.slc.role = .none →
      ∀ c ∈ [Instr.arbitrationLost t bit, .arbitrationWon t, .sendCompletion t outcome], exec c s = .next s))

/-- A tally expiry with no dirty slot only restarts the timer; else the first dirty slot from the pointer on is chosen, the pointer goes past it, and of its first four dirty blocks as many as the queue has room for are queued in class 1 and their flags cleared; at the first refusal counter 13 is raised and the rest stay dirty; the next expiry is 2,000 ms after this one was due (notes/assumptions/21.md) (R104, R122, R123). -/
def Obligations.TallyExpiryServesOneSlot : Prop :=
  ∀ (s : State) (t : Nat), s.phase = .running → s.xen.tallyDue ≤ stampAt t s →
    let ticked := { s with clock := max s.clock t, xen := { s.xen with tallyDue := s.xen.tallyDue + 2000 } }
    ((∀ i c, recordAt s i = some c → c.dirty = 0) → exec (.tallyExpiry t) s = .next ticked) ∧
    (∀ n i c, n < 4 → i = s.xen.tallyPtr + BitVec.toFin (BitVec.ofNat 2 n) → recordAt s i = some c → c.dirty ≠ 0 →
      (∀ m d, m < n → recordAt s (s.xen.tallyPtr + BitVec.toFin (BitVec.ofNat 2 m)) = some d → d.dirty = 0) →
      let blocks := ((List.range 64).filter (c.dirty.getLsbD ·)).take 4
      let sent := blocks.take (32 - s.slc.queue.length)
      ∃ u, exec (.tallyExpiry t) s = .next u ∧
        u.slc.queue = s.slc.queue ++ sent.map (fun b => newEntry (.tallyF c.key (BitVec.ofNat 16 (32 * b))
          ((List.range 32).map (fun j => BitVec.ofNat 4 (ownCode c (32 * b + j))))) .xen) ∧
        (∃ d, recordAt u i = some d ∧ d = { c with dirty := d.dirty } ∧
          ∀ b, b < 64 → d.dirty.getLsbD b = (c.dirty.getLsbD b && !sent.contains b)) ∧
        (∀ j, j ≠ i → recordAt u j = recordAt s j) ∧
        u.ssv = (if sent.length < blocks.length then bump 13 1 s else s).ssv ∧
        u.xen = { s.xen with tallyDue := s.xen.tallyDue + 2000, tallyPtr := i + 1 } ∧
        u.slc = { s.slc with queue := u.slc.queue } ∧ u.lcu = s.lcu ∧ u.lfr = s.lfr ∧
        u.cst = { s.cst with slots := u.cst.slots } ∧ u.clock = max s.clock t)

/-- A want timer expiry restarts the timer, puts an owed OPEN of a LIVE slot to the queue again, its request QUEUED when taken and OWED when refused, then runs the round: one WANT for the first block with a wanted line and a station to ask, counted in counter 11 when taken; with no such block nothing is queued; the next expiry is 4,000 ms after this one was due (notes/assumptions/21.md), and the XEN is the block that queued that OPEN (R84, R87, R103, R124, R127, R128, R129). -/
def Obligations.WantTimerExpires : Prop :=
  (∀ (s : State) (t due : Nat) (i : SlotNo) (c : Chart), s.phase = .running → recordAt s i = some c →
    c.wantDue = some due → due ≤ stampAt t s →
    let ticked := setChart i (some { c with wantDue := some (due + 4000) }) { s with clock := max s.clock t }
    let offer := enqueue ⟨.openF c.key (BitVec.ofNat 8 c.tag) (BitVec.ofNat 8 (rateCode c.rate)) 0, .xen, some i,
      c.localTransition.getD 0, [], false⟩ ticked
    (c.state = .live ∧ s.xen.openReq[i] = .owed →
      exec (.wantTimerExpiry t i) s = .next (wantRound i { offer.1 with xen := { offer.1.xen with
        openReq := s.xen.openReq.set i (if offer.2 then .queued else .owed) } })) ∧
    (¬ (c.state = .live ∧ s.xen.openReq[i] = .owed) → exec (.wantTimerExpiry t i) s = .next (wantRound i ticked))) ∧
  (∀ (s : State) (i : SlotNo) (c : Chart), recordAt s i = some c →
    ((∀ b, b < 64 → (∃ n, n < 32 ∧ wanted s i c (32 * b + n) = true) → blockAddress s i c b = 0) → wantRound i s = s) ∧
    (∀ b, b < 64 → (∃ n, n < 32 ∧ wanted s i c (32 * b + n) = true) → blockAddress s i c b ≠ 0 →
      (∀ a, a < b → (∃ n, n < 32 ∧ wanted s i c (32 * a + n) = true) → blockAddress s i c a = 0) →
      ∃ mask : BitVec 32, (∀ n, n < 32 → mask.getLsbD n = wanted s i c (32 * b + n)) ∧
        let offer := enqueue (newEntry (.wantF c.key (BitVec.ofNat 16 (32 * b)) mask (blockCodes c (32 * b))
          (blockAddress s i c b)) .xen) s
        wantRound i s = if offer.2 then bump 11 1 offer.1 else offer.1))

/-- Which lines a round wants: within the horizon, below the want level, unclaimed, two codes better at a present peer or absent in SWEEP; and whom the WANT names: the best present peers of those wanted by view, else the present receivers of own tag (R125, R126, R127, R128, R159). -/
def Obligations.WantedLinesAndStations : Prop :=
  (∀ (s : State) (i : SlotNo) (c : Chart) (j : Nat),
    wanted s i c j = true ↔
      (match c.state with
        | .live => ∃ h, (if c.bound then c.newest else c.highestHeld) = some h ∧ j + 4 ≤ h
        | .sweep => j + 1 ≤ (match c.announced, c.highestHeld with
          | some n, _ => n
          | none, some h => h + 1
          | none, none => 0)
        | .held => False) ∧
      ownCode c j < s.ssv.boot.wantLevel ∧
      (∀ d ∈ s.xen.claims, d.index = j → d.key ≠ c.key ∧ c.otherKey ≠ some d.key) ∧
      ((∃ r : Receiver, r ≠ s.ssv.own ∧ s.ssv.peers[stationOf r] ≠ none ∧ ownCode c j + 2 ≤ peerCode s i r j) ∨
        (c.state = .sweep ∧ mapGet c.lineMap j = none))) ∧
  (∀ (s : State) (i : SlotNo) (c : Chart) (b : Nat) (r : Receiver),
    let present (x : Receiver) : Prop := x ≠ s.ssv.own ∧ s.ssv.peers[stationOf x] ≠ none
    let asked (n : Nat) : Prop := n < 32 ∧ wanted s i c (32 * b + n) = true ∧
      ∃ x, present x ∧ ownCode c (32 * b + n) + 2 ≤ peerCode s i x (32 * b + n)
    ((∃ n, asked n) → ((blockAddress s i c b).getLsbD r.val = true ↔ present r ∧ ∃ n, asked n ∧
      ∀ x, present x → peerCode s i x (32 * b + n) ≤ peerCode s i r (32 * b + n))) ∧
    ((∀ n, ¬ asked n) → ((blockAddress s i c b).getLsbD r.val = true ↔
      r ≠ s.ssv.own ∧ ∃ p, s.ssv.peers[stationOf r] = some p ∧ p.roster = some (.receiver, s.ssv.boot.tag))) ∧
    ∀ n, 8 ≤ n → (blockAddress s i c b).getLsbD n = false)

/-- The sweep deadline: under STOP the slot enters HELD with NOTE class 5 detail 2, under KEEP it stays in SWEEP without a deadline; 120,000 ms without a reference close an unbound LIVE slot with reason SILENCE. With sweep seconds 0 it enters HELD at once, and its NOTE class 5 carries the detail 3 of R61 and R175, not the reason R95 speaks of (DEDUCED, notes/assumptions/16.md) (R61, R63, R64, R84, R95, R175). -/
def Obligations.SweepAndSilenceEnd : Prop :=
  (∀ (s : State) (t d : Nat) (i : SlotNo) (c : Chart), s.phase = .running → recordAt s i = some c → c.state = .sweep →
    c.sweepDeadline = some d → d ≤ stampAt t s →
    let moved := { s with clock := max s.clock t }
    (s.ssv.boot.sweepEnd = .stop → exec (.sweepDeadline t i) s = .next (raiseNote 5 (some c.key) 2
      (setChart i (some { c with state := .held, wantDue := none, sweepDeadline := none, used := true }) moved))) ∧
    (s.ssv.boot.sweepEnd = .keep → exec (.sweepDeadline t i) s =
      .next (setChart i (some { c with sweepDeadline := none }) moved))) ∧
  (∀ (s : State) (t : Nat) (i : SlotNo) (c : Chart), s.phase = .running → recordAt s i = some c → c.state = .live →
    c.bound = false → c.lastReference + 120000 ≤ stampAt t s →
    let moved := { s with clock := max s.clock t }
    exec (.silenceClose t i) s = .next (closeSlot i .silence moved) ∧
    (s.ssv.boot.sweepSeconds = 0 → exec (.silenceClose t i) s = .next (raiseNote 5 (some c.key) 3
      (setChart i (some { c with state := .held, closeReason := some .silence, wantDue := none, sweepDeadline := none, used := true })
        (setOpenReq i .nothing moved)))))

/-- An own ACTIVE entry lapses into counter 10 with its build line and queued fragments, and the builder tries again when a fragment or the head line has left, once behind all removals (DEDUCED, notes/assumptions/18.md); a HEARD entry lapses into counter 10 alone; a reception 2,000 ms old is discarded into counter 5; a station unheard for 150,000 ms is declared absent: its entry cleared, a receiver's column cleared in every view, NOTE class 14 with its number (R104, R121, R142, R143, R147, R148, R152, R158). -/
def Obligations.EntriesLapse : Prop :=
  (∀ (s : State) (t j e : Nat) (k : Key) (d : Claim), s.phase = .running →
    s.xen.claims.find? (fun c => c.state == .active && c.key == k && c.index == j) = some d → d.expiry = some e →
    e ≤ stampAt t s →
    let moved := { s with clock := max s.clock t }
    let isFragment (x : Entry) : Bool := match x.payload with | .lineF k' i .. => k' == k && i.toNat == j | _ => false
    exec (.claimLapse t k j) s = .next (retryBuild moved (bump 10 1 { moved with
      xen := { s.xen with
        claims := s.xen.claims.filter (fun c => !(c.state == .active && c.key == k && c.index == j))
        build := s.xen.build.filter (fun l => !(l.key == k && l.index == j)) }
      slc := { s.slc with queue := requestEntries isFragment .remove s.slc.queue } }))) ∧
  (∀ (s : State) (t j e : Nat) (k : Key) (r : Receiver) (d : Claim), s.phase = .running →
    s.xen.claims.find? (fun c => c.state == .heard && c.key == k && c.index == j && c.claimant == r) = some d →
    d.expiry = some e → e ≤ stampAt t s →
    exec (.heardLapse t k j r) s = .next (bump 10 1 { s with
      clock := max s.clock t
      xen := { s.xen with
        claims := s.xen.claims.filter (fun c => !(c.state == .heard && c.key == k && c.index == j && c.claimant == r)) } })) ∧
  (∀ (s : State) (t j : Nat) (r : Receiver) (k : Key) (a : Assembly), s.phase = .running →
    s.xen.assemblies.find? (fun x => x.sender == r && x.key == k && x.index == j) = some a →
    a.start + 2000 ≤ stampAt t s →
    exec (.reassemblyTimeout t r k j) s = .next (bump 5 1 { s with
      clock := max s.clock t
      xen := { s.xen with
        assemblies := s.xen.assemblies.filter (fun x => !(x.sender == r && x.key == k && x.index == j)) } })) ∧
  (∀ (s : State) (t : Nat) (st : Station) (p : Peer), s.phase = .running → s.ssv.peers[st] = some p →
    p.lastHeard + 150000 ≤ stampAt t s →
    ∃ v : Vector PeerView 4,
      exec (.peerAbsent t st) s = .next (raiseNote 14 none (BitVec.ofNat 16 st.val) { s with
        clock := max s.clock t
        xen := { s.xen with views := v }
        ssv := { s.ssv with peers := s.ssv.peers.set st none } }) ∧
      ∀ (i : SlotNo) (r : Receiver), (v[i])[r] = if stationOf r = st then [] else (s.xen.views[i])[r])

/-- The ROSTER timer: next expiry 60,000 ms on, a ROSTER of the values now held put to the queue. The minute timer: the counters go into a REPORT in order and are cleared, a refusal counts in the new minute; both restart from the time they were due (notes/assumptions/21.md) (R160, R161, R177, R181). -/
def Obligations.RosterAndReportQueued : Prop :=
  (∀ (s : State) (t : Nat), s.phase = .running → s.ssv.rosterDue ≤ stampAt t s →
    exec (.rosterExpiry t) s = .next (enqueue
      (newEntry (.rosterF 1 (BitVec.ofNat 8 s.ssv.boot.tag)
        (BitVec.ofNat 8 (([0, 1, 2, 3] : List SlotNo).countP (fun i => (recordAt s i).isNone)))
        (BitVec.ofNat 8 (s.cst.free.length / 64))
        (BitVec.ofNat 8 (match s.ssv.status with | .asRead => 0 | .clamped => 1 | .defaults => 2))
        s.ssv.version (BitVec.ofInt 8 s.lcu.offset)
        (BitVec.ofNat 8 (match s.lcu.status with | .inBand => 0 | .high => 1 | .low => 2))) .ssv)
      { s with clock := max s.clock t, ssv := { s.ssv with rosterDue := s.ssv.rosterDue + 60000 } }).1) ∧
  (∀ (s : State) (t : Nat), s.phase = .running → s.ssv.minuteDue ≤ stampAt t s →
    exec (.minuteExpiry t) s = .next (enqueue
      (newEntry (.reportF (s.ssv.counters.toList.map (BitVec.ofNat 16))) .ssv)
      { s with
        clock := max s.clock t
        ssv := { s.ssv with
          minuteDue := s.ssv.minuteDue + 60000
          counters := Vector.replicate 16 0 } }).1)

/-! ## Invariants -/

/-- The machine after reset meets every invariant below. -/
def Obligations.ResetMeetsInvariants : Prop :=
  Bounded State.reset ∧ Conditioned State.reset.lcu ∧ Stored State.reset ∧ Bindings State.reset ∧
    KeysDistinct State.reset ∧ Wired State.reset.slc ∧ OffTheLine State.reset ∧ Viewed State.reset ∧ Tracked State.reset

/-- Every step keeps word history, pulse list, tail, queue, claim table, reassembly table and counters within their sizes, line in progress, tail copies and pages at 1,200 pixels, and every column of every view in its form (R17, R22, R30, R31, R53, R104, R117, R137, R151, R176). -/
def Obligations.StepKeepsBounds : Prop :=
  ∀ s u : State, Bounded s ∧ Viewed s → step s = .next u → Bounded u ∧ Viewed u

/-- Every step keeps the LCU within its ranges: the even offset −48..+48, the counts, the accumulators, GDN with its timer, the pattern runs with their first words (DEDUCED, notes/assumptions/10.md) (R4, R7, R8, R9, R11, R12, R14). -/
def Obligations.StepKeepsConditioning : Prop :=
  ∀ s u : State, Conditioned s.lcu → step s = .next u → Conditioned u.lcu

/-- Every step accounts for every page: free list and held entries are together the 8,704 pages, each once, and maps and summaries agree (R53, R65, R66). -/
def Obligations.StepAccountsForPages : Prop :=
  ∀ s u : State, Stored s → step s = .next u → Stored u

/-- Every step keeps at most one slot bound, a LIVE one, the framer's own, in IMAGE (R55, R59). -/
def Obligations.StepKeepsBinding : Prop :=
  ∀ s u : State, Bindings s → step s = .next u → Bindings u

/-- Every step keeps the share keys of the slots apart (R55, R81). -/
def Obligations.StepKeepsKeysDistinct : Prop :=
  ∀ s u : State, KeysDistinct s → step s = .next u → KeysDistinct u

/-- Every step keeps one frame on the wire and SLE high exactly while the SLC has a part in the frame, and no part while silent. That they end together at a dominant end bit, as at any bit error, is DEDUCED (notes/assumptions/34.md). Every step keeps the part off the line in reset and boot: no part in a frame, SLE low, SLT recessive (R101, R106, R108, R115, R169). -/
def Obligations.StepKeepsWire : Prop :=
  (∀ s u : State, Wired s.slc → step s = .next u → Wired u.slc) ∧
  (∀ s u : State, OffTheLine s → step s = .next u → OffTheLine u)

/-- Every step keeps the build list within 64 lines, each once and with an own ACTIVE entry; the claim table with no line of its own twice and no claimant's line twice, filed under a slot's key; and every queued LINE fragment off the build list, with an ACTIVE entry unless its line has lapsed or gone while it is on the wire (R89, R105, R135, R137, R140, R141, R142, R143, R146, R147). -/
def Obligations.StepKeepsTransfers : Prop :=
  ∀ s u : State, Bounded s → Wired s.slc → Tracked s → step s = .next u → Tracked u
end

