-- ==== Sys2Proof/Laws/State.lean ====
section
/-! SUPPORT. One lemma for each field under each update of the state, true by rfl; the values an update writes. -/

namespace Sys2Proof.Machine

variable (s : State)

/-! ## Station time -/

@[simp] theorem advance_phase (t : Nat) : (advance t s).phase = s.phase := by unfold advance; split <;> rfl
@[simp] theorem advance_lcu (t : Nat) : (advance t s).lcu = s.lcu := by unfold advance; split <;> rfl
@[simp] theorem advance_lfr (t : Nat) : (advance t s).lfr = s.lfr := by unfold advance; split <;> rfl
@[simp] theorem advance_cst (t : Nat) : (advance t s).cst = s.cst := by unfold advance; split <;> rfl
@[simp] theorem advance_xen (t : Nat) : (advance t s).xen = s.xen := by unfold advance; split <;> rfl
@[simp] theorem advance_slc (t : Nat) : (advance t s).slc = s.slc := by unfold advance; split <;> rfl
@[simp] theorem advance_ssv (t : Nat) : (advance t s).ssv = s.ssv := by unfold advance; split <;> rfl
@[simp] theorem advance_pending (t : Nat) : (advance t s).pending = s.pending := by unfold advance; split <;> rfl
theorem advance_clock (t : Nat) (h : s.phase = .running) : (advance t s).clock = max s.clock t := by simp [advance, h]
theorem advance_running (t : Nat) (h : s.phase = .running) : advance t s = { s with clock := max s.clock t } := by simp [advance, h]
theorem advance_stopped (t : Nat) (h : s.phase ≠ .running) : advance t s = s := by simp [advance, h]

/-! ## setLcu -/

@[simp] theorem setLcu_phase (l : Lcu) : (setLcu l s).phase = s.phase := rfl
@[simp] theorem setLcu_clock (l : Lcu) : (setLcu l s).clock = s.clock := rfl
@[simp] theorem setLcu_lfr (l : Lcu) : (setLcu l s).lfr = s.lfr := rfl
@[simp] theorem setLcu_cst (l : Lcu) : (setLcu l s).cst = s.cst := rfl
@[simp] theorem setLcu_xen (l : Lcu) : (setLcu l s).xen = s.xen := rfl
@[simp] theorem setLcu_slc (l : Lcu) : (setLcu l s).slc = s.slc := rfl
@[simp] theorem setLcu_ssv (l : Lcu) : (setLcu l s).ssv = s.ssv := rfl
@[simp] theorem setLcu_pending (l : Lcu) : (setLcu l s).pending = s.pending := rfl
@[simp] theorem setLcu_lcu (l : Lcu) : (setLcu l s).lcu = l := rfl

/-! ## setLfr -/

@[simp] theorem setLfr_phase (f : Lfr) : (setLfr f s).phase = s.phase := rfl
@[simp] theorem setLfr_clock (f : Lfr) : (setLfr f s).clock = s.clock := rfl
@[simp] theorem setLfr_lcu (f : Lfr) : (setLfr f s).lcu = s.lcu := rfl
@[simp] theorem setLfr_cst (f : Lfr) : (setLfr f s).cst = s.cst := rfl
@[simp] theorem setLfr_xen (f : Lfr) : (setLfr f s).xen = s.xen := rfl
@[simp] theorem setLfr_slc (f : Lfr) : (setLfr f s).slc = s.slc := rfl
@[simp] theorem setLfr_ssv (f : Lfr) : (setLfr f s).ssv = s.ssv := rfl
@[simp] theorem setLfr_pending (f : Lfr) : (setLfr f s).pending = s.pending := rfl
@[simp] theorem setLfr_lfr (f : Lfr) : (setLfr f s).lfr = f := rfl

/-! ## setSlc -/

@[simp] theorem setSlc_phase (l : Slc) : (setSlc l s).phase = s.phase := rfl
@[simp] theorem setSlc_clock (l : Slc) : (setSlc l s).clock = s.clock := rfl
@[simp] theorem setSlc_lcu (l : Slc) : (setSlc l s).lcu = s.lcu := rfl
@[simp] theorem setSlc_lfr (l : Slc) : (setSlc l s).lfr = s.lfr := rfl
@[simp] theorem setSlc_cst (l : Slc) : (setSlc l s).cst = s.cst := rfl
@[simp] theorem setSlc_xen (l : Slc) : (setSlc l s).xen = s.xen := rfl
@[simp] theorem setSlc_ssv (l : Slc) : (setSlc l s).ssv = s.ssv := rfl
@[simp] theorem setSlc_pending (l : Slc) : (setSlc l s).pending = s.pending := rfl
@[simp] theorem setSlc_slc (l : Slc) : (setSlc l s).slc = l := rfl

/-! ## bump -/

@[simp] theorem bump_phase (n : Fin 16) (k : Nat) : (bump n k s).phase = s.phase := rfl
@[simp] theorem bump_clock (n : Fin 16) (k : Nat) : (bump n k s).clock = s.clock := rfl
@[simp] theorem bump_lcu (n : Fin 16) (k : Nat) : (bump n k s).lcu = s.lcu := rfl
@[simp] theorem bump_lfr (n : Fin 16) (k : Nat) : (bump n k s).lfr = s.lfr := rfl
@[simp] theorem bump_cst (n : Fin 16) (k : Nat) : (bump n k s).cst = s.cst := rfl
@[simp] theorem bump_xen (n : Fin 16) (k : Nat) : (bump n k s).xen = s.xen := rfl
@[simp] theorem bump_slc (n : Fin 16) (k : Nat) : (bump n k s).slc = s.slc := rfl
@[simp] theorem bump_pending (n : Fin 16) (k : Nat) : (bump n k s).pending = s.pending := rfl
@[simp] theorem bump_ssv_own (n : Fin 16) (k : Nat) : (bump n k s).ssv.own = s.ssv.own := rfl
@[simp] theorem bump_ssv_boot (n : Fin 16) (k : Nat) : (bump n k s).ssv.boot = s.ssv.boot := rfl
@[simp] theorem bump_ssv_status (n : Fin 16) (k : Nat) : (bump n k s).ssv.status = s.ssv.status := rfl
@[simp] theorem bump_ssv_version (n : Fin 16) (k : Nat) : (bump n k s).ssv.version = s.ssv.version := rfl
@[simp] theorem bump_ssv_minuteDue (n : Fin 16) (k : Nat) : (bump n k s).ssv.minuteDue = s.ssv.minuteDue := rfl
@[simp] theorem bump_ssv_rosterDue (n : Fin 16) (k : Nat) : (bump n k s).ssv.rosterDue = s.ssv.rosterDue := rfl
@[simp] theorem bump_ssv_peers (n : Fin 16) (k : Nat) : (bump n k s).ssv.peers = s.ssv.peers := rfl
@[simp] theorem bump_ssv_bootBus (n : Fin 16) (k : Nat) : (bump n k s).ssv.bootBus = s.ssv.bootBus := rfl
@[simp] theorem bump_ssv_bootSteps (n : Fin 16) (k : Nat) : (bump n k s).ssv.bootSteps = s.ssv.bootSteps := rfl

/-! ## setChart -/

@[simp] theorem setChart_phase (i : SlotNo) (c : Option Chart) : (setChart i c s).phase = s.phase := rfl
@[simp] theorem setChart_clock (i : SlotNo) (c : Option Chart) : (setChart i c s).clock = s.clock := rfl
@[simp] theorem setChart_lcu (i : SlotNo) (c : Option Chart) : (setChart i c s).lcu = s.lcu := rfl
@[simp] theorem setChart_lfr (i : SlotNo) (c : Option Chart) : (setChart i c s).lfr = s.lfr := rfl
@[simp] theorem setChart_xen (i : SlotNo) (c : Option Chart) : (setChart i c s).xen = s.xen := rfl
@[simp] theorem setChart_slc (i : SlotNo) (c : Option Chart) : (setChart i c s).slc = s.slc := rfl
@[simp] theorem setChart_ssv (i : SlotNo) (c : Option Chart) : (setChart i c s).ssv = s.ssv := rfl
@[simp] theorem setChart_pending (i : SlotNo) (c : Option Chart) : (setChart i c s).pending = s.pending := rfl
@[simp] theorem setChart_cst_pages (i : SlotNo) (c : Option Chart) : (setChart i c s).cst.pages = s.cst.pages := rfl
@[simp] theorem setChart_cst_free (i : SlotNo) (c : Option Chart) : (setChart i c s).cst.free = s.cst.free := rfl
@[simp] theorem setChart_cst_poolReported (i : SlotNo) (c : Option Chart) : (setChart i c s).cst.poolReported = s.cst.poolReported := rfl
@[simp] theorem setChart_cst_evictPtr (i : SlotNo) (c : Option Chart) : (setChart i c s).cst.evictPtr = s.cst.evictPtr := rfl
@[simp] theorem setChart_cst_ownSequence (i : SlotNo) (c : Option Chart) : (setChart i c s).cst.ownSequence = s.cst.ownSequence := rfl

/-! ## setOpenReq -/

@[simp] theorem setOpenReq_phase (i : SlotNo) (r : OpenRequest) : (setOpenReq i r s).phase = s.phase := rfl
@[simp] theorem setOpenReq_clock (i : SlotNo) (r : OpenRequest) : (setOpenReq i r s).clock = s.clock := rfl
@[simp] theorem setOpenReq_lcu (i : SlotNo) (r : OpenRequest) : (setOpenReq i r s).lcu = s.lcu := rfl
@[simp] theorem setOpenReq_lfr (i : SlotNo) (r : OpenRequest) : (setOpenReq i r s).lfr = s.lfr := rfl
@[simp] theorem setOpenReq_cst (i : SlotNo) (r : OpenRequest) : (setOpenReq i r s).cst = s.cst := rfl
@[simp] theorem setOpenReq_slc (i : SlotNo) (r : OpenRequest) : (setOpenReq i r s).slc = s.slc := rfl
@[simp] theorem setOpenReq_ssv (i : SlotNo) (r : OpenRequest) : (setOpenReq i r s).ssv = s.ssv := rfl
@[simp] theorem setOpenReq_pending (i : SlotNo) (r : OpenRequest) : (setOpenReq i r s).pending = s.pending := rfl
@[simp] theorem setOpenReq_xen_views (i : SlotNo) (r : OpenRequest) : (setOpenReq i r s).xen.views = s.xen.views := rfl
@[simp] theorem setOpenReq_xen_tallyDue (i : SlotNo) (r : OpenRequest) : (setOpenReq i r s).xen.tallyDue = s.xen.tallyDue := rfl
@[simp] theorem setOpenReq_xen_tallyPtr (i : SlotNo) (r : OpenRequest) : (setOpenReq i r s).xen.tallyPtr = s.xen.tallyPtr := rfl
@[simp] theorem setOpenReq_xen_claims (i : SlotNo) (r : OpenRequest) : (setOpenReq i r s).xen.claims = s.xen.claims := rfl
@[simp] theorem setOpenReq_xen_build (i : SlotNo) (r : OpenRequest) : (setOpenReq i r s).xen.build = s.xen.build := rfl
@[simp] theorem setOpenReq_xen_assemblies (i : SlotNo) (r : OpenRequest) : (setOpenReq i r s).xen.assemblies = s.xen.assemblies := rfl

/-! ## setView -/

@[simp] theorem setView_phase (i : SlotNo) (v : PeerView) : (setView i v s).phase = s.phase := rfl
@[simp] theorem setView_clock (i : SlotNo) (v : PeerView) : (setView i v s).clock = s.clock := rfl
@[simp] theorem setView_lcu (i : SlotNo) (v : PeerView) : (setView i v s).lcu = s.lcu := rfl
@[simp] theorem setView_lfr (i : SlotNo) (v : PeerView) : (setView i v s).lfr = s.lfr := rfl
@[simp] theorem setView_cst (i : SlotNo) (v : PeerView) : (setView i v s).cst = s.cst := rfl
@[simp] theorem setView_slc (i : SlotNo) (v : PeerView) : (setView i v s).slc = s.slc := rfl
@[simp] theorem setView_ssv (i : SlotNo) (v : PeerView) : (setView i v s).ssv = s.ssv := rfl
@[simp] theorem setView_pending (i : SlotNo) (v : PeerView) : (setView i v s).pending = s.pending := rfl
@[simp] theorem setView_xen_openReq (i : SlotNo) (v : PeerView) : (setView i v s).xen.openReq = s.xen.openReq := rfl
@[simp] theorem setView_xen_tallyDue (i : SlotNo) (v : PeerView) : (setView i v s).xen.tallyDue = s.xen.tallyDue := rfl
@[simp] theorem setView_xen_tallyPtr (i : SlotNo) (v : PeerView) : (setView i v s).xen.tallyPtr = s.xen.tallyPtr := rfl
@[simp] theorem setView_xen_claims (i : SlotNo) (v : PeerView) : (setView i v s).xen.claims = s.xen.claims := rfl
@[simp] theorem setView_xen_build (i : SlotNo) (v : PeerView) : (setView i v s).xen.build = s.xen.build := rfl
@[simp] theorem setView_xen_assemblies (i : SlotNo) (v : PeerView) : (setView i v s).xen.assemblies = s.xen.assemblies := rfl

/-! ## setClaims -/

@[simp] theorem setClaims_phase (c : List Claim) : (setClaims c s).phase = s.phase := rfl
@[simp] theorem setClaims_clock (c : List Claim) : (setClaims c s).clock = s.clock := rfl
@[simp] theorem setClaims_lcu (c : List Claim) : (setClaims c s).lcu = s.lcu := rfl
@[simp] theorem setClaims_lfr (c : List Claim) : (setClaims c s).lfr = s.lfr := rfl
@[simp] theorem setClaims_cst (c : List Claim) : (setClaims c s).cst = s.cst := rfl
@[simp] theorem setClaims_slc (c : List Claim) : (setClaims c s).slc = s.slc := rfl
@[simp] theorem setClaims_ssv (c : List Claim) : (setClaims c s).ssv = s.ssv := rfl
@[simp] theorem setClaims_pending (c : List Claim) : (setClaims c s).pending = s.pending := rfl
@[simp] theorem setClaims_xen_views (c : List Claim) : (setClaims c s).xen.views = s.xen.views := rfl
@[simp] theorem setClaims_xen_openReq (c : List Claim) : (setClaims c s).xen.openReq = s.xen.openReq := rfl
@[simp] theorem setClaims_xen_tallyDue (c : List Claim) : (setClaims c s).xen.tallyDue = s.xen.tallyDue := rfl
@[simp] theorem setClaims_xen_tallyPtr (c : List Claim) : (setClaims c s).xen.tallyPtr = s.xen.tallyPtr := rfl
@[simp] theorem setClaims_xen_build (c : List Claim) : (setClaims c s).xen.build = s.xen.build := rfl
@[simp] theorem setClaims_xen_assemblies (c : List Claim) : (setClaims c s).xen.assemblies = s.xen.assemblies := rfl

/-! ## setBuild -/

@[simp] theorem setBuild_phase (b : List BuildLine) : (setBuild b s).phase = s.phase := rfl
@[simp] theorem setBuild_clock (b : List BuildLine) : (setBuild b s).clock = s.clock := rfl
@[simp] theorem setBuild_lcu (b : List BuildLine) : (setBuild b s).lcu = s.lcu := rfl
@[simp] theorem setBuild_lfr (b : List BuildLine) : (setBuild b s).lfr = s.lfr := rfl
@[simp] theorem setBuild_cst (b : List BuildLine) : (setBuild b s).cst = s.cst := rfl
@[simp] theorem setBuild_slc (b : List BuildLine) : (setBuild b s).slc = s.slc := rfl
@[simp] theorem setBuild_ssv (b : List BuildLine) : (setBuild b s).ssv = s.ssv := rfl
@[simp] theorem setBuild_pending (b : List BuildLine) : (setBuild b s).pending = s.pending := rfl
@[simp] theorem setBuild_xen_views (b : List BuildLine) : (setBuild b s).xen.views = s.xen.views := rfl
@[simp] theorem setBuild_xen_openReq (b : List BuildLine) : (setBuild b s).xen.openReq = s.xen.openReq := rfl
@[simp] theorem setBuild_xen_tallyDue (b : List BuildLine) : (setBuild b s).xen.tallyDue = s.xen.tallyDue := rfl
@[simp] theorem setBuild_xen_tallyPtr (b : List BuildLine) : (setBuild b s).xen.tallyPtr = s.xen.tallyPtr := rfl
@[simp] theorem setBuild_xen_claims (b : List BuildLine) : (setBuild b s).xen.claims = s.xen.claims := rfl
@[simp] theorem setBuild_xen_assemblies (b : List BuildLine) : (setBuild b s).xen.assemblies = s.xen.assemblies := rfl

/-! ## setAssemblies -/

@[simp] theorem setAssemblies_phase (a : List Assembly) : (setAssemblies a s).phase = s.phase := rfl
@[simp] theorem setAssemblies_clock (a : List Assembly) : (setAssemblies a s).clock = s.clock := rfl
@[simp] theorem setAssemblies_lcu (a : List Assembly) : (setAssemblies a s).lcu = s.lcu := rfl
@[simp] theorem setAssemblies_lfr (a : List Assembly) : (setAssemblies a s).lfr = s.lfr := rfl
@[simp] theorem setAssemblies_cst (a : List Assembly) : (setAssemblies a s).cst = s.cst := rfl
@[simp] theorem setAssemblies_slc (a : List Assembly) : (setAssemblies a s).slc = s.slc := rfl
@[simp] theorem setAssemblies_ssv (a : List Assembly) : (setAssemblies a s).ssv = s.ssv := rfl
@[simp] theorem setAssemblies_pending (a : List Assembly) : (setAssemblies a s).pending = s.pending := rfl
@[simp] theorem setAssemblies_xen_views (a : List Assembly) : (setAssemblies a s).xen.views = s.xen.views := rfl
@[simp] theorem setAssemblies_xen_openReq (a : List Assembly) : (setAssemblies a s).xen.openReq = s.xen.openReq := rfl
@[simp] theorem setAssemblies_xen_tallyDue (a : List Assembly) : (setAssemblies a s).xen.tallyDue = s.xen.tallyDue := rfl
@[simp] theorem setAssemblies_xen_tallyPtr (a : List Assembly) : (setAssemblies a s).xen.tallyPtr = s.xen.tallyPtr := rfl
@[simp] theorem setAssemblies_xen_claims (a : List Assembly) : (setAssemblies a s).xen.claims = s.xen.claims := rfl
@[simp] theorem setAssemblies_xen_build (a : List Assembly) : (setAssemblies a s).xen.build = s.xen.build := rfl

/-! ## setQueue -/

@[simp] theorem setQueue_phase (q : List Entry) : (setQueue q s).phase = s.phase := rfl
@[simp] theorem setQueue_clock (q : List Entry) : (setQueue q s).clock = s.clock := rfl
@[simp] theorem setQueue_lcu (q : List Entry) : (setQueue q s).lcu = s.lcu := rfl
@[simp] theorem setQueue_lfr (q : List Entry) : (setQueue q s).lfr = s.lfr := rfl
@[simp] theorem setQueue_cst (q : List Entry) : (setQueue q s).cst = s.cst := rfl
@[simp] theorem setQueue_xen (q : List Entry) : (setQueue q s).xen = s.xen := rfl
@[simp] theorem setQueue_ssv (q : List Entry) : (setQueue q s).ssv = s.ssv := rfl
@[simp] theorem setQueue_pending (q : List Entry) : (setQueue q s).pending = s.pending := rfl
@[simp] theorem setQueue_slc_lineState (q : List Entry) : (setQueue q s).slc.lineState = s.slc.lineState := rfl
@[simp] theorem setQueue_slc_recessiveRun (q : List Entry) : (setQueue q s).slc.recessiveRun = s.slc.recessiveRun := rfl
@[simp] theorem setQueue_slc_rx (q : List Entry) : (setQueue q s).slc.rx = s.slc.rx := rfl
@[simp] theorem setQueue_slc_role (q : List Entry) : (setQueue q s).slc.role = s.slc.role := rfl
@[simp] theorem setQueue_slc_damageRun (q : List Entry) : (setQueue q s).slc.damageRun = s.slc.damageRun := rfl
@[simp] theorem setQueue_slc_silent (q : List Entry) : (setQueue q s).slc.silent = s.slc.silent := rfl
@[simp] theorem setQueue_slc_sle (q : List Entry) : (setQueue q s).slc.sle = s.slc.sle := rfl
@[simp] theorem setQueue_slc_sltRecessive (q : List Entry) : (setQueue q s).slc.sltRecessive = s.slc.sltRecessive := rfl

/-! ## setPeer -/

@[simp] theorem setPeer_phase (st : Station) (p : Option Peer) : (setPeer st p s).phase = s.phase := rfl
@[simp] theorem setPeer_clock (st : Station) (p : Option Peer) : (setPeer st p s).clock = s.clock := rfl
@[simp] theorem setPeer_lcu (st : Station) (p : Option Peer) : (setPeer st p s).lcu = s.lcu := rfl
@[simp] theorem setPeer_lfr (st : Station) (p : Option Peer) : (setPeer st p s).lfr = s.lfr := rfl
@[simp] theorem setPeer_cst (st : Station) (p : Option Peer) : (setPeer st p s).cst = s.cst := rfl
@[simp] theorem setPeer_xen (st : Station) (p : Option Peer) : (setPeer st p s).xen = s.xen := rfl
@[simp] theorem setPeer_slc (st : Station) (p : Option Peer) : (setPeer st p s).slc = s.slc := rfl
@[simp] theorem setPeer_pending (st : Station) (p : Option Peer) : (setPeer st p s).pending = s.pending := rfl
@[simp] theorem setPeer_ssv_own (st : Station) (p : Option Peer) : (setPeer st p s).ssv.own = s.ssv.own := rfl
@[simp] theorem setPeer_ssv_boot (st : Station) (p : Option Peer) : (setPeer st p s).ssv.boot = s.ssv.boot := rfl
@[simp] theorem setPeer_ssv_status (st : Station) (p : Option Peer) : (setPeer st p s).ssv.status = s.ssv.status := rfl
@[simp] theorem setPeer_ssv_version (st : Station) (p : Option Peer) : (setPeer st p s).ssv.version = s.ssv.version := rfl
@[simp] theorem setPeer_ssv_counters (st : Station) (p : Option Peer) : (setPeer st p s).ssv.counters = s.ssv.counters := rfl
@[simp] theorem setPeer_ssv_minuteDue (st : Station) (p : Option Peer) : (setPeer st p s).ssv.minuteDue = s.ssv.minuteDue := rfl
@[simp] theorem setPeer_ssv_rosterDue (st : Station) (p : Option Peer) : (setPeer st p s).ssv.rosterDue = s.ssv.rosterDue := rfl
@[simp] theorem setPeer_ssv_bootBus (st : Station) (p : Option Peer) : (setPeer st p s).ssv.bootBus = s.ssv.bootBus := rfl
@[simp] theorem setPeer_ssv_bootSteps (st : Station) (p : Option Peer) : (setPeer st p s).ssv.bootSteps = s.ssv.bootSteps := rfl

/-! ## setPeerCode -/

@[simp] theorem setPeerCode_phase (i : SlotNo) (r : Receiver) (j code : Nat) : (setPeerCode i r j code s).phase = s.phase := rfl
@[simp] theorem setPeerCode_clock (i : SlotNo) (r : Receiver) (j code : Nat) : (setPeerCode i r j code s).clock = s.clock := rfl
@[simp] theorem setPeerCode_lcu (i : SlotNo) (r : Receiver) (j code : Nat) : (setPeerCode i r j code s).lcu = s.lcu := rfl
@[simp] theorem setPeerCode_lfr (i : SlotNo) (r : Receiver) (j code : Nat) : (setPeerCode i r j code s).lfr = s.lfr := rfl
@[simp] theorem setPeerCode_cst (i : SlotNo) (r : Receiver) (j code : Nat) : (setPeerCode i r j code s).cst = s.cst := rfl
@[simp] theorem setPeerCode_slc (i : SlotNo) (r : Receiver) (j code : Nat) : (setPeerCode i r j code s).slc = s.slc := rfl
@[simp] theorem setPeerCode_ssv (i : SlotNo) (r : Receiver) (j code : Nat) : (setPeerCode i r j code s).ssv = s.ssv := rfl
@[simp] theorem setPeerCode_pending (i : SlotNo) (r : Receiver) (j code : Nat) : (setPeerCode i r j code s).pending = s.pending := rfl
@[simp] theorem setPeerCode_xen_openReq (i : SlotNo) (r : Receiver) (j code : Nat) : (setPeerCode i r j code s).xen.openReq = s.xen.openReq := rfl
@[simp] theorem setPeerCode_xen_tallyDue (i : SlotNo) (r : Receiver) (j code : Nat) : (setPeerCode i r j code s).xen.tallyDue = s.xen.tallyDue := rfl
@[simp] theorem setPeerCode_xen_tallyPtr (i : SlotNo) (r : Receiver) (j code : Nat) : (setPeerCode i r j code s).xen.tallyPtr = s.xen.tallyPtr := rfl
@[simp] theorem setPeerCode_xen_claims (i : SlotNo) (r : Receiver) (j code : Nat) : (setPeerCode i r j code s).xen.claims = s.xen.claims := rfl
@[simp] theorem setPeerCode_xen_build (i : SlotNo) (r : Receiver) (j code : Nat) : (setPeerCode i r j code s).xen.build = s.xen.build := rfl
@[simp] theorem setPeerCode_xen_assemblies (i : SlotNo) (r : Receiver) (j code : Nat) : (setPeerCode i r j code s).xen.assemblies = s.xen.assemblies := rfl

/-! ## The values written -/

@[simp] theorem setClaims_claims (c : List Claim) : (setClaims c s).xen.claims = c := rfl
@[simp] theorem setBuild_build (b : List BuildLine) : (setBuild b s).xen.build = b := rfl
@[simp] theorem setAssemblies_assemblies (a : List Assembly) : (setAssemblies a s).xen.assemblies = a := rfl
@[simp] theorem setQueue_queue (q : List Entry) : (setQueue q s).slc.queue = q := rfl
theorem bump_counters (n : Fin 16) (k : Nat) : (bump n k s).ssv.counters =
    s.ssv.counters.set n (min Config.counterLimit (s.ssv.counters[n] + k)) := rfl
@[simp] theorem setChart_slots (i : SlotNo) (c : Option Chart) : (setChart i c s).cst.slots = s.cst.slots.set i c := rfl
@[simp] theorem setPeer_peers (st : Station) (p : Option Peer) : (setPeer st p s).ssv.peers = s.ssv.peers.set st p := rfl
@[simp] theorem setOpenReq_openReq (i : SlotNo) (r : OpenRequest) : (setOpenReq i r s).xen.openReq = s.xen.openReq.set i r := rfl
@[simp] theorem setView_views (i : SlotNo) (v : PeerView) : (setView i v s).xen.views = s.xen.views.set i v := rfl

/-- The slot written holds what was written, every other slot what it held. -/
theorem recordAt_setChart (i j : SlotNo) (c : Option Chart) :
    recordAt (setChart i c s) j = if i = j then c else recordAt s j := by
  unfold recordAt
  simp only [setChart_slots, Fin.getElem_fin]
  by_cases h : i = j
  · subst h; simp
  · have : i.val ≠ j.val := fun e => h (Fin.ext e)
    simp [h, this]

@[simp] theorem recordAt_setChart_same (i : SlotNo) (c : Option Chart) : recordAt (setChart i c s) i = c := by
  simp [recordAt_setChart]

/-- A record depends on the slots alone. -/
theorem recordAt_congr {s t : State} (h : t.cst.slots = s.cst.slots) (i : SlotNo) : recordAt t i = recordAt s i := by
  unfold recordAt; rw [h]

theorem slotOf_congr {s t : State} (h : t.cst.slots = s.cst.slots) (k : Key) : slotOf t k = slotOf s k := by
  unfold slotOf; simp only [recordAt_congr h]

/-- A counter after an addition: what was added, up to 65,535; no other counter moves (R176). -/
theorem bump_getElem (n m : Fin 16) (k : Nat) : (bump n k s).ssv.counters[m] =
    if m = n then min 65535 (s.ssv.counters[m] + k) else s.ssv.counters[m] := by
  simp only [bump_counters, Fin.getElem_fin, Config.counterLimit]
  by_cases h : m = n
  · subst h; simp
  · have : n.val ≠ m.val := fun e => h (Fin.ext e.symm)
    simp [h, this]

/-- Altering a record leaves the other slots, and alters the record of its slot if it has one. -/
theorem recordAt_updateChart (i j : SlotNo) (f : Chart → Chart) :
    recordAt (updateChart i f s) j = if i = j then (recordAt s j).map f else recordAt s j := by
  unfold updateChart
  split
  · next h => by_cases e : i = j <;> simp_all
  · next c h => rw [recordAt_setChart]; by_cases e : i = j <;> simp_all

end Sys2Proof.Machine
end

