-- ==== Sys2Proof/Laws/Frames.lean ====
section
/-! SUPPORT. What each shared operation leaves alone, field by field. -/

set_option linter.unnecessarySeqFocus false
set_option linter.unusedSimpArgs false
set_option linter.unusedTactic false
set_option linter.unreachableTactic false

namespace Sys2Proof.Machine

variable (s : State)

/-- Two states with the same parts are the same. -/
theorem state_ext {a b : State} (h1 : a.phase = b.phase) (h2 : a.clock = b.clock) (h3 : a.lcu = b.lcu) (h4 : a.lfr = b.lfr)
    (h5 : a.cst = b.cst) (h6 : a.xen = b.xen) (h7 : a.slc = b.slc) (h8 : a.ssv = b.ssv) (h9 : a.pending = b.pending) :
    a = b := by cases a; cases b; simp_all

/-! ## Queue and notes (R104, R175) -/

@[simp] theorem enqueue_keeps (e : Entry) :
    ((enqueue e s).1).phase = s.phase ∧ ((enqueue e s).1).clock = s.clock ∧ ((enqueue e s).1).lcu = s.lcu ∧
    ((enqueue e s).1).lfr = s.lfr ∧ ((enqueue e s).1).cst = s.cst ∧ ((enqueue e s).1).xen = s.xen ∧
    ((enqueue e s).1).slc.lineState = s.slc.lineState ∧ ((enqueue e s).1).slc.recessiveRun = s.slc.recessiveRun ∧
    ((enqueue e s).1).slc.rx = s.slc.rx ∧ ((enqueue e s).1).slc.role = s.slc.role ∧
    ((enqueue e s).1).slc.damageRun = s.slc.damageRun ∧ ((enqueue e s).1).slc.silent = s.slc.silent ∧
    ((enqueue e s).1).slc.sle = s.slc.sle ∧ ((enqueue e s).1).slc.sltRecessive = s.slc.sltRecessive ∧
    ((enqueue e s).1).ssv.own = s.ssv.own ∧ ((enqueue e s).1).ssv.boot = s.ssv.boot ∧
    ((enqueue e s).1).ssv.status = s.ssv.status ∧ ((enqueue e s).1).ssv.version = s.ssv.version ∧
    ((enqueue e s).1).ssv.minuteDue = s.ssv.minuteDue ∧ ((enqueue e s).1).ssv.rosterDue = s.ssv.rosterDue ∧
    ((enqueue e s).1).ssv.peers = s.ssv.peers ∧ ((enqueue e s).1).ssv.bootBus = s.ssv.bootBus ∧
    ((enqueue e s).1).ssv.bootSteps = s.ssv.bootSteps ∧
    ((enqueue e s).1).pending = s.pending := by
  refine ⟨?_, ?_, ?_, ?_, ?_, ?_, ?_, ?_, ?_, ?_, ?_, ?_, ?_, ?_, ?_, ?_, ?_, ?_, ?_, ?_, ?_, ?_, ?_, ?_⟩ <;>
    (unfold enqueue; split <;> rfl)
@[simp] theorem enqueueGroup_keeps (es : List Entry) :
    ((enqueueGroup es s).1).phase = s.phase ∧ ((enqueueGroup es s).1).clock = s.clock ∧
    ((enqueueGroup es s).1).lcu = s.lcu ∧ ((enqueueGroup es s).1).lfr = s.lfr ∧ ((enqueueGroup es s).1).cst = s.cst ∧
    ((enqueueGroup es s).1).xen = s.xen ∧ ((enqueueGroup es s).1).slc.lineState = s.slc.lineState ∧
    ((enqueueGroup es s).1).slc.recessiveRun = s.slc.recessiveRun ∧ ((enqueueGroup es s).1).slc.rx = s.slc.rx ∧
    ((enqueueGroup es s).1).slc.role = s.slc.role ∧ ((enqueueGroup es s).1).slc.damageRun = s.slc.damageRun ∧
    ((enqueueGroup es s).1).slc.silent = s.slc.silent ∧ ((enqueueGroup es s).1).slc.sle = s.slc.sle ∧
    ((enqueueGroup es s).1).slc.sltRecessive = s.slc.sltRecessive ∧ ((enqueueGroup es s).1).ssv = s.ssv ∧
    ((enqueueGroup es s).1).pending = s.pending := by
  refine ⟨?_, ?_, ?_, ?_, ?_, ?_, ?_, ?_, ?_, ?_, ?_, ?_, ?_, ?_, ?_, ?_⟩ <;>
    (unfold enqueueGroup; split <;> rfl)
@[simp] theorem raiseNote_keeps (n : Nat) (k : Option Key) (d : BitVec 16) :
    (raiseNote n k d s).phase = s.phase ∧ (raiseNote n k d s).clock = s.clock ∧ (raiseNote n k d s).lcu = s.lcu ∧
    (raiseNote n k d s).lfr = s.lfr ∧ (raiseNote n k d s).cst = s.cst ∧ (raiseNote n k d s).xen = s.xen ∧
    (raiseNote n k d s).slc.lineState = s.slc.lineState ∧ (raiseNote n k d s).slc.recessiveRun = s.slc.recessiveRun ∧
    (raiseNote n k d s).slc.rx = s.slc.rx ∧ (raiseNote n k d s).slc.role = s.slc.role ∧
    (raiseNote n k d s).slc.damageRun = s.slc.damageRun ∧ (raiseNote n k d s).slc.silent = s.slc.silent ∧
    (raiseNote n k d s).slc.sle = s.slc.sle ∧ (raiseNote n k d s).slc.sltRecessive = s.slc.sltRecessive ∧
    (raiseNote n k d s).ssv.own = s.ssv.own ∧ (raiseNote n k d s).ssv.boot = s.ssv.boot ∧
    (raiseNote n k d s).ssv.status = s.ssv.status ∧ (raiseNote n k d s).ssv.version = s.ssv.version ∧
    (raiseNote n k d s).ssv.minuteDue = s.ssv.minuteDue ∧ (raiseNote n k d s).ssv.rosterDue = s.ssv.rosterDue ∧
    (raiseNote n k d s).ssv.peers = s.ssv.peers ∧ (raiseNote n k d s).ssv.bootBus = s.ssv.bootBus ∧
    (raiseNote n k d s).ssv.bootSteps = s.ssv.bootSteps ∧
    (raiseNote n k d s).pending = s.pending := by
  refine ⟨?_, ?_, ?_, ?_, ?_, ?_, ?_, ?_, ?_, ?_, ?_, ?_, ?_, ?_, ?_, ?_, ?_, ?_, ?_, ?_, ?_, ?_, ?_, ?_⟩ <;>
    (unfold raiseNote; split <;> simp)
@[simp] theorem allocationFailed_keeps (k : Option Key) (d : BitVec 16) :
    (allocationFailed k d s).phase = s.phase ∧ (allocationFailed k d s).clock = s.clock ∧
    (allocationFailed k d s).lcu = s.lcu ∧ (allocationFailed k d s).lfr = s.lfr ∧
    (allocationFailed k d s).cst = s.cst ∧ (allocationFailed k d s).xen = s.xen ∧
    (allocationFailed k d s).slc.lineState = s.slc.lineState ∧
    (allocationFailed k d s).slc.recessiveRun = s.slc.recessiveRun ∧ (allocationFailed k d s).slc.rx = s.slc.rx ∧
    (allocationFailed k d s).slc.role = s.slc.role ∧ (allocationFailed k d s).slc.damageRun = s.slc.damageRun ∧
    (allocationFailed k d s).slc.silent = s.slc.silent ∧ (allocationFailed k d s).slc.sle = s.slc.sle ∧
    (allocationFailed k d s).slc.sltRecessive = s.slc.sltRecessive ∧ (allocationFailed k d s).ssv.own = s.ssv.own ∧
    (allocationFailed k d s).ssv.boot = s.ssv.boot ∧ (allocationFailed k d s).ssv.status = s.ssv.status ∧
    (allocationFailed k d s).ssv.version = s.ssv.version ∧ (allocationFailed k d s).ssv.minuteDue = s.ssv.minuteDue ∧
    (allocationFailed k d s).ssv.rosterDue = s.ssv.rosterDue ∧ (allocationFailed k d s).ssv.peers = s.ssv.peers ∧
    (allocationFailed k d s).ssv.bootBus = s.ssv.bootBus ∧
    (allocationFailed k d s).ssv.bootSteps = s.ssv.bootSteps ∧ (allocationFailed k d s).pending = s.pending := by
  refine ⟨?_, ?_, ?_, ?_, ?_, ?_, ?_, ?_, ?_, ?_, ?_, ?_, ?_, ?_, ?_, ?_, ?_, ?_, ?_, ?_, ?_, ?_, ?_, ?_⟩ <;>
    (simp [allocationFailed])

/-! ## Building (R143) -/

/-- An attempt to build alters the queue and the build list alone (R143). -/
theorem buildLines_frame (l : List BuildLine) : ∀ s : State, buildLines l s =
    { s with slc := { s.slc with queue := (buildLines l s).slc.queue }, xen := { s.xen with build := (buildLines l s).xen.build } } := by
  induction l with
  | nil => intro s; rfl
  | cons l rest ih =>
    intro s
    unfold buildLines
    split
    · exact ih s
    · next e pixels _ =>
      simp only
      split
      · rw [ih]; unfold enqueueGroup; split <;> rfl
      · rfl

@[simp] theorem buildLines_keeps (l : List BuildLine) :
    (buildLines l s).phase = s.phase ∧ (buildLines l s).clock = s.clock ∧ (buildLines l s).lcu = s.lcu ∧
    (buildLines l s).lfr = s.lfr ∧ (buildLines l s).cst = s.cst ∧ (buildLines l s).xen.views = s.xen.views ∧
    (buildLines l s).xen.openReq = s.xen.openReq ∧ (buildLines l s).xen.tallyDue = s.xen.tallyDue ∧
    (buildLines l s).xen.tallyPtr = s.xen.tallyPtr ∧ (buildLines l s).xen.claims = s.xen.claims ∧
    (buildLines l s).xen.assemblies = s.xen.assemblies ∧ (buildLines l s).slc.lineState = s.slc.lineState ∧
    (buildLines l s).slc.recessiveRun = s.slc.recessiveRun ∧ (buildLines l s).slc.rx = s.slc.rx ∧
    (buildLines l s).slc.role = s.slc.role ∧ (buildLines l s).slc.damageRun = s.slc.damageRun ∧
    (buildLines l s).slc.silent = s.slc.silent ∧ (buildLines l s).slc.sle = s.slc.sle ∧
    (buildLines l s).slc.sltRecessive = s.slc.sltRecessive ∧ (buildLines l s).ssv = s.ssv ∧
    (buildLines l s).pending = s.pending := by
  refine ⟨?_, ?_, ?_, ?_, ?_, ?_, ?_, ?_, ?_, ?_, ?_, ?_, ?_, ?_, ?_, ?_, ?_, ?_, ?_, ?_, ?_⟩ <;>
    (rw [buildLines_frame])
@[simp] theorem tryBuild_keeps :
    (tryBuild s).phase = s.phase ∧ (tryBuild s).clock = s.clock ∧ (tryBuild s).lcu = s.lcu ∧
    (tryBuild s).lfr = s.lfr ∧ (tryBuild s).cst = s.cst ∧ (tryBuild s).xen.views = s.xen.views ∧
    (tryBuild s).xen.openReq = s.xen.openReq ∧ (tryBuild s).xen.tallyDue = s.xen.tallyDue ∧
    (tryBuild s).xen.tallyPtr = s.xen.tallyPtr ∧ (tryBuild s).xen.claims = s.xen.claims ∧
    (tryBuild s).xen.assemblies = s.xen.assemblies ∧ (tryBuild s).slc.lineState = s.slc.lineState ∧
    (tryBuild s).slc.recessiveRun = s.slc.recessiveRun ∧ (tryBuild s).slc.rx = s.slc.rx ∧
    (tryBuild s).slc.role = s.slc.role ∧ (tryBuild s).slc.damageRun = s.slc.damageRun ∧
    (tryBuild s).slc.silent = s.slc.silent ∧ (tryBuild s).slc.sle = s.slc.sle ∧
    (tryBuild s).slc.sltRecessive = s.slc.sltRecessive ∧ (tryBuild s).ssv = s.ssv ∧ (tryBuild s).pending = s.pending := by
  refine ⟨?_, ?_, ?_, ?_, ?_, ?_, ?_, ?_, ?_, ?_, ?_, ?_, ?_, ?_, ?_, ?_, ?_, ?_, ?_, ?_, ?_⟩ <;>
    (simp [tryBuild])
/-- What the attempts of an act come to: one attempt, or nothing (R104, R143). -/
theorem retryBuild_cases (before : State) : retryBuild before s = tryBuild s ∨ retryBuild before s = s := by
  unfold retryBuild; split <;> simp
@[simp] theorem retryBuild_keeps (before : State) :
    (retryBuild before s).phase = s.phase ∧ (retryBuild before s).clock = s.clock ∧ (retryBuild before s).lcu = s.lcu ∧
    (retryBuild before s).lfr = s.lfr ∧ (retryBuild before s).cst = s.cst ∧ (retryBuild before s).xen.views = s.xen.views ∧
    (retryBuild before s).xen.openReq = s.xen.openReq ∧ (retryBuild before s).xen.tallyDue = s.xen.tallyDue ∧
    (retryBuild before s).xen.tallyPtr = s.xen.tallyPtr ∧ (retryBuild before s).xen.claims = s.xen.claims ∧
    (retryBuild before s).xen.assemblies = s.xen.assemblies ∧ (retryBuild before s).slc.lineState = s.slc.lineState ∧
    (retryBuild before s).slc.recessiveRun = s.slc.recessiveRun ∧ (retryBuild before s).slc.rx = s.slc.rx ∧
    (retryBuild before s).slc.role = s.slc.role ∧ (retryBuild before s).slc.damageRun = s.slc.damageRun ∧
    (retryBuild before s).slc.silent = s.slc.silent ∧ (retryBuild before s).slc.sle = s.slc.sle ∧
    (retryBuild before s).slc.sltRecessive = s.slc.sltRecessive ∧ (retryBuild before s).ssv = s.ssv ∧ (retryBuild before s).pending = s.pending := by
  refine ⟨?_, ?_, ?_, ?_, ?_, ?_, ?_, ?_, ?_, ?_, ?_, ?_, ?_, ?_, ?_, ?_, ?_, ?_, ?_, ?_, ?_⟩ <;>
    (unfold retryBuild; split <;> simp)
@[simp] theorem withdrawEntries_keeps (sel : Entry → Bool) (r : Request) :
    (withdrawEntries sel r s).phase = s.phase ∧ (withdrawEntries sel r s).clock = s.clock ∧
    (withdrawEntries sel r s).lcu = s.lcu ∧ (withdrawEntries sel r s).lfr = s.lfr ∧
    (withdrawEntries sel r s).cst = s.cst ∧ (withdrawEntries sel r s).xen.views = s.xen.views ∧
    (withdrawEntries sel r s).xen.openReq = s.xen.openReq ∧ (withdrawEntries sel r s).xen.tallyDue = s.xen.tallyDue ∧
    (withdrawEntries sel r s).xen.tallyPtr = s.xen.tallyPtr ∧ (withdrawEntries sel r s).xen.claims = s.xen.claims ∧
    (withdrawEntries sel r s).xen.assemblies = s.xen.assemblies ∧
    (withdrawEntries sel r s).slc.lineState = s.slc.lineState ∧
    (withdrawEntries sel r s).slc.recessiveRun = s.slc.recessiveRun ∧ (withdrawEntries sel r s).slc.rx = s.slc.rx ∧
    (withdrawEntries sel r s).slc.role = s.slc.role ∧ (withdrawEntries sel r s).slc.damageRun = s.slc.damageRun ∧
    (withdrawEntries sel r s).slc.silent = s.slc.silent ∧ (withdrawEntries sel r s).slc.sle = s.slc.sle ∧
    (withdrawEntries sel r s).slc.sltRecessive = s.slc.sltRecessive ∧ (withdrawEntries sel r s).ssv = s.ssv ∧
    (withdrawEntries sel r s).pending = s.pending := by
  refine ⟨?_, ?_, ?_, ?_, ?_, ?_, ?_, ?_, ?_, ?_, ?_, ?_, ?_, ?_, ?_, ?_, ?_, ?_, ?_, ?_, ?_⟩ <;>
    (simp [withdrawEntries])

/-! ## Charts -/

@[simp] theorem updateChart_keeps (i : SlotNo) (f : Chart → Chart) :
    (updateChart i f s).phase = s.phase ∧ (updateChart i f s).clock = s.clock ∧ (updateChart i f s).lcu = s.lcu ∧
    (updateChart i f s).lfr = s.lfr ∧ (updateChart i f s).cst.pages = s.cst.pages ∧
    (updateChart i f s).cst.free = s.cst.free ∧ (updateChart i f s).cst.poolReported = s.cst.poolReported ∧
    (updateChart i f s).cst.evictPtr = s.cst.evictPtr ∧ (updateChart i f s).cst.ownSequence = s.cst.ownSequence ∧
    (updateChart i f s).xen = s.xen ∧ (updateChart i f s).slc = s.slc ∧ (updateChart i f s).ssv = s.ssv ∧
    (updateChart i f s).pending = s.pending := by
  refine ⟨?_, ?_, ?_, ?_, ?_, ?_, ?_, ?_, ?_, ?_, ?_, ?_, ?_⟩ <;>
    (unfold updateChart; split <;> rfl)
@[simp] theorem refreshReference_keeps (k : Key) (t : Nat) :
    (refreshReference k t s).phase = s.phase ∧ (refreshReference k t s).clock = s.clock ∧
    (refreshReference k t s).lcu = s.lcu ∧ (refreshReference k t s).lfr = s.lfr ∧
    (refreshReference k t s).cst.pages = s.cst.pages ∧ (refreshReference k t s).cst.free = s.cst.free ∧
    (refreshReference k t s).cst.poolReported = s.cst.poolReported ∧
    (refreshReference k t s).cst.evictPtr = s.cst.evictPtr ∧
    (refreshReference k t s).cst.ownSequence = s.cst.ownSequence ∧ (refreshReference k t s).xen = s.xen ∧
    (refreshReference k t s).slc = s.slc ∧ (refreshReference k t s).ssv = s.ssv ∧
    (refreshReference k t s).pending = s.pending := by
  refine ⟨?_, ?_, ?_, ?_, ?_, ?_, ?_, ?_, ?_, ?_, ?_, ?_, ?_⟩ <;>
    (unfold refreshReference; split <;> simp)
@[simp] theorem setAllDirty_keeps :
    (setAllDirty s).phase = s.phase ∧ (setAllDirty s).clock = s.clock ∧ (setAllDirty s).lcu = s.lcu ∧
    (setAllDirty s).lfr = s.lfr ∧ (setAllDirty s).cst.pages = s.cst.pages ∧ (setAllDirty s).cst.free = s.cst.free ∧
    (setAllDirty s).cst.poolReported = s.cst.poolReported ∧ (setAllDirty s).cst.evictPtr = s.cst.evictPtr ∧
    (setAllDirty s).cst.ownSequence = s.cst.ownSequence ∧ (setAllDirty s).xen = s.xen ∧ (setAllDirty s).slc = s.slc ∧
    (setAllDirty s).ssv = s.ssv ∧ (setAllDirty s).pending = s.pending := by
  refine ⟨?_, ?_, ?_, ?_, ?_, ?_, ?_, ?_, ?_, ?_, ?_, ?_, ?_⟩ <;>
    (simp [setAllDirty, allSlots])
@[simp] theorem returnPages_keeps (ps : List Nat) :
    (returnPages ps s).phase = s.phase ∧ (returnPages ps s).clock = s.clock ∧ (returnPages ps s).lcu = s.lcu ∧
    (returnPages ps s).lfr = s.lfr ∧ (returnPages ps s).cst.pages = s.cst.pages ∧
    (returnPages ps s).cst.slots = s.cst.slots ∧ (returnPages ps s).cst.evictPtr = s.cst.evictPtr ∧
    (returnPages ps s).cst.ownSequence = s.cst.ownSequence ∧ (returnPages ps s).xen = s.xen ∧
    (returnPages ps s).slc = s.slc ∧ (returnPages ps s).ssv = s.ssv ∧ (returnPages ps s).pending = s.pending := by
  refine ⟨?_, ?_, ?_, ?_, ?_, ?_, ?_, ?_, ?_, ?_, ?_, ?_⟩ <;>
    (rfl)
@[simp] theorem poolEmptyDrop_keeps (c : Chart) (j : Nat) :
    (poolEmptyDrop c j s).phase = s.phase ∧ (poolEmptyDrop c j s).clock = s.clock ∧
    (poolEmptyDrop c j s).lcu = s.lcu ∧ (poolEmptyDrop c j s).lfr = s.lfr ∧
    (poolEmptyDrop c j s).cst.pages = s.cst.pages ∧ (poolEmptyDrop c j s).cst.free = s.cst.free ∧
    (poolEmptyDrop c j s).cst.slots = s.cst.slots ∧ (poolEmptyDrop c j s).cst.evictPtr = s.cst.evictPtr ∧
    (poolEmptyDrop c j s).cst.ownSequence = s.cst.ownSequence ∧ (poolEmptyDrop c j s).xen = s.xen ∧
    (poolEmptyDrop c j s).slc.lineState = s.slc.lineState ∧
    (poolEmptyDrop c j s).slc.recessiveRun = s.slc.recessiveRun ∧ (poolEmptyDrop c j s).slc.rx = s.slc.rx ∧
    (poolEmptyDrop c j s).slc.role = s.slc.role ∧ (poolEmptyDrop c j s).slc.damageRun = s.slc.damageRun ∧
    (poolEmptyDrop c j s).slc.silent = s.slc.silent ∧ (poolEmptyDrop c j s).slc.sle = s.slc.sle ∧
    (poolEmptyDrop c j s).slc.sltRecessive = s.slc.sltRecessive ∧ (poolEmptyDrop c j s).ssv.own = s.ssv.own ∧
    (poolEmptyDrop c j s).ssv.boot = s.ssv.boot ∧ (poolEmptyDrop c j s).ssv.status = s.ssv.status ∧
    (poolEmptyDrop c j s).ssv.version = s.ssv.version ∧ (poolEmptyDrop c j s).ssv.minuteDue = s.ssv.minuteDue ∧
    (poolEmptyDrop c j s).ssv.rosterDue = s.ssv.rosterDue ∧ (poolEmptyDrop c j s).ssv.peers = s.ssv.peers ∧
    (poolEmptyDrop c j s).ssv.bootBus = s.ssv.bootBus ∧
    (poolEmptyDrop c j s).ssv.bootSteps = s.ssv.bootSteps ∧ (poolEmptyDrop c j s).pending = s.pending := by
  refine ⟨?_, ?_, ?_, ?_, ?_, ?_, ?_, ?_, ?_, ?_, ?_, ?_, ?_, ?_, ?_, ?_, ?_, ?_, ?_, ?_, ?_, ?_, ?_, ?_, ?_, ?_, ?_, ?_⟩ <;>
    (simp only [poolEmptyDrop]; split <;> simp)
@[simp] theorem enterHeld_keeps (i : SlotNo) (d : Nat) :
    (enterHeld i d s).phase = s.phase ∧ (enterHeld i d s).clock = s.clock ∧ (enterHeld i d s).lcu = s.lcu ∧
    (enterHeld i d s).lfr = s.lfr ∧ (enterHeld i d s).cst.pages = s.cst.pages ∧
    (enterHeld i d s).cst.free = s.cst.free ∧ (enterHeld i d s).cst.poolReported = s.cst.poolReported ∧
    (enterHeld i d s).cst.evictPtr = s.cst.evictPtr ∧ (enterHeld i d s).cst.ownSequence = s.cst.ownSequence ∧
    (enterHeld i d s).xen = s.xen ∧ (enterHeld i d s).slc.lineState = s.slc.lineState ∧
    (enterHeld i d s).slc.recessiveRun = s.slc.recessiveRun ∧ (enterHeld i d s).slc.rx = s.slc.rx ∧
    (enterHeld i d s).slc.role = s.slc.role ∧ (enterHeld i d s).slc.damageRun = s.slc.damageRun ∧
    (enterHeld i d s).slc.silent = s.slc.silent ∧ (enterHeld i d s).slc.sle = s.slc.sle ∧
    (enterHeld i d s).slc.sltRecessive = s.slc.sltRecessive ∧ (enterHeld i d s).ssv.own = s.ssv.own ∧
    (enterHeld i d s).ssv.boot = s.ssv.boot ∧ (enterHeld i d s).ssv.status = s.ssv.status ∧
    (enterHeld i d s).ssv.version = s.ssv.version ∧ (enterHeld i d s).ssv.minuteDue = s.ssv.minuteDue ∧
    (enterHeld i d s).ssv.rosterDue = s.ssv.rosterDue ∧ (enterHeld i d s).ssv.peers = s.ssv.peers ∧
    (enterHeld i d s).ssv.bootBus = s.ssv.bootBus ∧
    (enterHeld i d s).ssv.bootSteps = s.ssv.bootSteps ∧ (enterHeld i d s).pending = s.pending := by
  refine ⟨?_, ?_, ?_, ?_, ?_, ?_, ?_, ?_, ?_, ?_, ?_, ?_, ?_, ?_, ?_, ?_, ?_, ?_, ?_, ?_, ?_, ?_, ?_, ?_, ?_, ?_, ?_, ?_⟩ <;>
    (unfold enterHeld; split <;> simp)
@[simp] theorem testComplete_keeps (i : SlotNo) :
    (testComplete i s).phase = s.phase ∧ (testComplete i s).clock = s.clock ∧ (testComplete i s).lcu = s.lcu ∧
    (testComplete i s).lfr = s.lfr ∧ (testComplete i s).cst.pages = s.cst.pages ∧
    (testComplete i s).cst.free = s.cst.free ∧ (testComplete i s).cst.poolReported = s.cst.poolReported ∧
    (testComplete i s).cst.evictPtr = s.cst.evictPtr ∧ (testComplete i s).cst.ownSequence = s.cst.ownSequence ∧
    (testComplete i s).xen = s.xen ∧ (testComplete i s).slc.lineState = s.slc.lineState ∧
    (testComplete i s).slc.recessiveRun = s.slc.recessiveRun ∧ (testComplete i s).slc.rx = s.slc.rx ∧
    (testComplete i s).slc.role = s.slc.role ∧ (testComplete i s).slc.damageRun = s.slc.damageRun ∧
    (testComplete i s).slc.silent = s.slc.silent ∧ (testComplete i s).slc.sle = s.slc.sle ∧
    (testComplete i s).slc.sltRecessive = s.slc.sltRecessive ∧ (testComplete i s).ssv.own = s.ssv.own ∧
    (testComplete i s).ssv.boot = s.ssv.boot ∧ (testComplete i s).ssv.status = s.ssv.status ∧
    (testComplete i s).ssv.version = s.ssv.version ∧ (testComplete i s).ssv.minuteDue = s.ssv.minuteDue ∧
    (testComplete i s).ssv.rosterDue = s.ssv.rosterDue ∧ (testComplete i s).ssv.peers = s.ssv.peers ∧
    (testComplete i s).ssv.bootBus = s.ssv.bootBus ∧
    (testComplete i s).ssv.bootSteps = s.ssv.bootSteps ∧ (testComplete i s).pending = s.pending := by
  refine ⟨?_, ?_, ?_, ?_, ?_, ?_, ?_, ?_, ?_, ?_, ?_, ?_, ?_, ?_, ?_, ?_, ?_, ?_, ?_, ?_, ?_, ?_, ?_, ?_, ?_, ?_, ?_, ?_⟩ <;>
    (unfold testComplete; split <;> (try split) <;> simp)
@[simp] theorem closeSlot_keeps (i : SlotNo) (r : CloseReason) :
    (closeSlot i r s).phase = s.phase ∧ (closeSlot i r s).clock = s.clock ∧ (closeSlot i r s).lcu = s.lcu ∧
    (closeSlot i r s).lfr = s.lfr ∧ (closeSlot i r s).cst.pages = s.cst.pages ∧
    (closeSlot i r s).cst.free = s.cst.free ∧ (closeSlot i r s).cst.poolReported = s.cst.poolReported ∧
    (closeSlot i r s).cst.evictPtr = s.cst.evictPtr ∧ (closeSlot i r s).cst.ownSequence = s.cst.ownSequence ∧
    (closeSlot i r s).xen.views = s.xen.views ∧ (closeSlot i r s).xen.tallyDue = s.xen.tallyDue ∧
    (closeSlot i r s).xen.tallyPtr = s.xen.tallyPtr ∧ (closeSlot i r s).xen.claims = s.xen.claims ∧
    (closeSlot i r s).xen.build = s.xen.build ∧ (closeSlot i r s).xen.assemblies = s.xen.assemblies ∧
    (closeSlot i r s).slc.lineState = s.slc.lineState ∧ (closeSlot i r s).slc.recessiveRun = s.slc.recessiveRun ∧
    (closeSlot i r s).slc.rx = s.slc.rx ∧ (closeSlot i r s).slc.role = s.slc.role ∧
    (closeSlot i r s).slc.damageRun = s.slc.damageRun ∧ (closeSlot i r s).slc.silent = s.slc.silent ∧
    (closeSlot i r s).slc.sle = s.slc.sle ∧ (closeSlot i r s).slc.sltRecessive = s.slc.sltRecessive ∧
    (closeSlot i r s).ssv.own = s.ssv.own ∧ (closeSlot i r s).ssv.boot = s.ssv.boot ∧
    (closeSlot i r s).ssv.status = s.ssv.status ∧ (closeSlot i r s).ssv.version = s.ssv.version ∧
    (closeSlot i r s).ssv.minuteDue = s.ssv.minuteDue ∧ (closeSlot i r s).ssv.rosterDue = s.ssv.rosterDue ∧
    (closeSlot i r s).ssv.peers = s.ssv.peers ∧ (closeSlot i r s).ssv.bootBus = s.ssv.bootBus ∧
    (closeSlot i r s).ssv.bootSteps = s.ssv.bootSteps ∧
    (closeSlot i r s).pending = s.pending := by
  refine ⟨?_, ?_, ?_, ?_, ?_, ?_, ?_, ?_, ?_, ?_, ?_, ?_, ?_, ?_, ?_, ?_, ?_, ?_, ?_, ?_, ?_, ?_, ?_, ?_, ?_, ?_, ?_, ?_, ?_, ?_, ?_, ?_, ?_⟩ <;>
    (unfold closeSlot; split <;> (try split) <;> (try simp only) <;> (try split) <;> simp)

/-! ## Merging (R70 to R73) -/

@[simp] theorem storeCopy_keeps (i : SlotNo) (c : Chart) (j : Nat) (v : Copy) (p : Nat) (rest : List Nat) :
    (storeCopy i c j v p rest s).phase = s.phase ∧ (storeCopy i c j v p rest s).clock = s.clock ∧
    (storeCopy i c j v p rest s).lcu = s.lcu ∧ (storeCopy i c j v p rest s).lfr = s.lfr ∧
    (storeCopy i c j v p rest s).cst.evictPtr = s.cst.evictPtr ∧
    (storeCopy i c j v p rest s).cst.ownSequence = s.cst.ownSequence ∧ (storeCopy i c j v p rest s).xen = s.xen ∧
    (storeCopy i c j v p rest s).slc.lineState = s.slc.lineState ∧
    (storeCopy i c j v p rest s).slc.recessiveRun = s.slc.recessiveRun ∧
    (storeCopy i c j v p rest s).slc.rx = s.slc.rx ∧ (storeCopy i c j v p rest s).slc.role = s.slc.role ∧
    (storeCopy i c j v p rest s).slc.damageRun = s.slc.damageRun ∧
    (storeCopy i c j v p rest s).slc.silent = s.slc.silent ∧ (storeCopy i c j v p rest s).slc.sle = s.slc.sle ∧
    (storeCopy i c j v p rest s).slc.sltRecessive = s.slc.sltRecessive ∧
    (storeCopy i c j v p rest s).ssv.own = s.ssv.own ∧ (storeCopy i c j v p rest s).ssv.boot = s.ssv.boot ∧
    (storeCopy i c j v p rest s).ssv.status = s.ssv.status ∧
    (storeCopy i c j v p rest s).ssv.version = s.ssv.version ∧
    (storeCopy i c j v p rest s).ssv.minuteDue = s.ssv.minuteDue ∧
    (storeCopy i c j v p rest s).ssv.rosterDue = s.ssv.rosterDue ∧
    (storeCopy i c j v p rest s).ssv.peers = s.ssv.peers ∧ (storeCopy i c j v p rest s).ssv.bootBus = s.ssv.bootBus ∧
    (storeCopy i c j v p rest s).ssv.bootSteps = s.ssv.bootSteps ∧
    (storeCopy i c j v p rest s).pending = s.pending := by
  refine ⟨?_, ?_, ?_, ?_, ?_, ?_, ?_, ?_, ?_, ?_, ?_, ?_, ?_, ?_, ?_, ?_, ?_, ?_, ?_, ?_, ?_, ?_, ?_, ?_, ?_⟩ <;>
    (simp only [storeCopy]; cases v.origin <;> split <;> simp)
@[simp] theorem mergeOffer_keeps (i : SlotNo) (k : Key) (j : Nat) (v : Copy) :
    (mergeOffer i k j v s).phase = s.phase ∧ (mergeOffer i k j v s).clock = s.clock ∧
    (mergeOffer i k j v s).lcu = s.lcu ∧ (mergeOffer i k j v s).lfr = s.lfr ∧
    (mergeOffer i k j v s).cst.evictPtr = s.cst.evictPtr ∧
    (mergeOffer i k j v s).cst.ownSequence = s.cst.ownSequence ∧ (mergeOffer i k j v s).xen = s.xen ∧
    (mergeOffer i k j v s).slc.lineState = s.slc.lineState ∧
    (mergeOffer i k j v s).slc.recessiveRun = s.slc.recessiveRun ∧ (mergeOffer i k j v s).slc.rx = s.slc.rx ∧
    (mergeOffer i k j v s).slc.role = s.slc.role ∧ (mergeOffer i k j v s).slc.damageRun = s.slc.damageRun ∧
    (mergeOffer i k j v s).slc.silent = s.slc.silent ∧ (mergeOffer i k j v s).slc.sle = s.slc.sle ∧
    (mergeOffer i k j v s).slc.sltRecessive = s.slc.sltRecessive ∧ (mergeOffer i k j v s).ssv.own = s.ssv.own ∧
    (mergeOffer i k j v s).ssv.boot = s.ssv.boot ∧ (mergeOffer i k j v s).ssv.status = s.ssv.status ∧
    (mergeOffer i k j v s).ssv.version = s.ssv.version ∧ (mergeOffer i k j v s).ssv.minuteDue = s.ssv.minuteDue ∧
    (mergeOffer i k j v s).ssv.rosterDue = s.ssv.rosterDue ∧ (mergeOffer i k j v s).ssv.peers = s.ssv.peers ∧
    (mergeOffer i k j v s).ssv.bootBus = s.ssv.bootBus ∧
    (mergeOffer i k j v s).ssv.bootSteps = s.ssv.bootSteps ∧ (mergeOffer i k j v s).pending = s.pending := by
  refine ⟨?_, ?_, ?_, ?_, ?_, ?_, ?_, ?_, ?_, ?_, ?_, ?_, ?_, ?_, ?_, ?_, ?_, ?_, ?_, ?_, ?_, ?_, ?_, ?_, ?_⟩ <;>
    (unfold mergeOffer; split <;> (try split) <;> (try simp only) <;> (try split) <;> (try split) <;> simp)
@[simp] theorem commitCopy_keeps (i : SlotNo) (j : Nat) (v : Copy) :
    (commitCopy i j v s).phase = s.phase ∧ (commitCopy i j v s).clock = s.clock ∧ (commitCopy i j v s).lcu = s.lcu ∧
    (commitCopy i j v s).lfr = s.lfr ∧ (commitCopy i j v s).cst.evictPtr = s.cst.evictPtr ∧
    (commitCopy i j v s).cst.ownSequence = s.cst.ownSequence ∧ (commitCopy i j v s).xen = s.xen ∧
    (commitCopy i j v s).slc.lineState = s.slc.lineState ∧
    (commitCopy i j v s).slc.recessiveRun = s.slc.recessiveRun ∧ (commitCopy i j v s).slc.rx = s.slc.rx ∧
    (commitCopy i j v s).slc.role = s.slc.role ∧ (commitCopy i j v s).slc.damageRun = s.slc.damageRun ∧
    (commitCopy i j v s).slc.silent = s.slc.silent ∧ (commitCopy i j v s).slc.sle = s.slc.sle ∧
    (commitCopy i j v s).slc.sltRecessive = s.slc.sltRecessive ∧ (commitCopy i j v s).ssv.own = s.ssv.own ∧
    (commitCopy i j v s).ssv.boot = s.ssv.boot ∧ (commitCopy i j v s).ssv.status = s.ssv.status ∧
    (commitCopy i j v s).ssv.version = s.ssv.version ∧ (commitCopy i j v s).ssv.minuteDue = s.ssv.minuteDue ∧
    (commitCopy i j v s).ssv.rosterDue = s.ssv.rosterDue ∧ (commitCopy i j v s).ssv.peers = s.ssv.peers ∧
    (commitCopy i j v s).ssv.bootBus = s.ssv.bootBus ∧
    (commitCopy i j v s).ssv.bootSteps = s.ssv.bootSteps ∧ (commitCopy i j v s).pending = s.pending := by
  refine ⟨?_, ?_, ?_, ?_, ?_, ?_, ?_, ?_, ?_, ?_, ?_, ?_, ?_, ?_, ?_, ?_, ?_, ?_, ?_, ?_, ?_, ?_, ?_, ?_, ?_⟩ <;>
    (unfold commitCopy; split <;> (try simp only) <;> (try split) <;> simp)

/-! ## Freeing and allocating (R56, R57, R77) -/

@[simp] theorem dropClaims_keeps (f : Claim → Bool) :
    (dropClaims f s).phase = s.phase ∧ (dropClaims f s).clock = s.clock ∧ (dropClaims f s).lcu = s.lcu ∧
    (dropClaims f s).lfr = s.lfr ∧ (dropClaims f s).cst = s.cst ∧ (dropClaims f s).xen.views = s.xen.views ∧
    (dropClaims f s).xen.openReq = s.xen.openReq ∧ (dropClaims f s).xen.tallyDue = s.xen.tallyDue ∧
    (dropClaims f s).xen.tallyPtr = s.xen.tallyPtr ∧ (dropClaims f s).xen.build = s.xen.build ∧
    (dropClaims f s).xen.assemblies = s.xen.assemblies ∧ (dropClaims f s).slc = s.slc ∧
    (dropClaims f s).ssv = s.ssv ∧ (dropClaims f s).pending = s.pending := by
  refine ⟨?_, ?_, ?_, ?_, ?_, ?_, ?_, ?_, ?_, ?_, ?_, ?_, ?_, ?_⟩ <;>
    (rfl)
@[simp] theorem dropBuildLine_keeps (k : Key) (j : Nat) :
    (dropBuildLine k j s).phase = s.phase ∧ (dropBuildLine k j s).clock = s.clock ∧
    (dropBuildLine k j s).lcu = s.lcu ∧ (dropBuildLine k j s).lfr = s.lfr ∧ (dropBuildLine k j s).cst = s.cst ∧
    (dropBuildLine k j s).xen.views = s.xen.views ∧ (dropBuildLine k j s).xen.openReq = s.xen.openReq ∧
    (dropBuildLine k j s).xen.tallyDue = s.xen.tallyDue ∧ (dropBuildLine k j s).xen.tallyPtr = s.xen.tallyPtr ∧
    (dropBuildLine k j s).xen.claims = s.xen.claims ∧ (dropBuildLine k j s).xen.assemblies = s.xen.assemblies ∧
    (dropBuildLine k j s).slc = s.slc ∧ (dropBuildLine k j s).ssv = s.ssv ∧ (dropBuildLine k j s).pending = s.pending := by
  refine ⟨?_, ?_, ?_, ?_, ?_, ?_, ?_, ?_, ?_, ?_, ?_, ?_, ?_, ?_⟩ <;>
    (rfl)
@[simp] theorem freeSlot_keeps (i : SlotNo) :
    (freeSlot i s).phase = s.phase ∧ (freeSlot i s).clock = s.clock ∧ (freeSlot i s).lcu = s.lcu ∧
    (freeSlot i s).lfr = s.lfr ∧ (freeSlot i s).cst.pages = s.cst.pages ∧
    (freeSlot i s).cst.evictPtr = s.cst.evictPtr ∧ (freeSlot i s).cst.ownSequence = s.cst.ownSequence ∧
    (freeSlot i s).xen.tallyDue = s.xen.tallyDue ∧ (freeSlot i s).xen.tallyPtr = s.xen.tallyPtr ∧
    (freeSlot i s).slc.lineState = s.slc.lineState ∧ (freeSlot i s).slc.recessiveRun = s.slc.recessiveRun ∧
    (freeSlot i s).slc.rx = s.slc.rx ∧ (freeSlot i s).slc.role = s.slc.role ∧
    (freeSlot i s).slc.damageRun = s.slc.damageRun ∧ (freeSlot i s).slc.silent = s.slc.silent ∧
    (freeSlot i s).slc.sle = s.slc.sle ∧ (freeSlot i s).slc.sltRecessive = s.slc.sltRecessive ∧
    (freeSlot i s).ssv = s.ssv ∧ (freeSlot i s).pending = s.pending := by
  refine ⟨?_, ?_, ?_, ?_, ?_, ?_, ?_, ?_, ?_, ?_, ?_, ?_, ?_, ?_, ?_, ?_, ?_, ?_, ?_⟩ <;>
    (unfold freeSlot; split <;> simp)
/-- What the pass keeps: anything that moving the pointer, altering a record, freeing a slot and a NOTE keep (R57). -/
theorem secondChance_preserves {α : Type} (φ : State → α)
    (hp : ∀ (p : SlotNo) s, φ { s with cst := { s.cst with evictPtr := p } } = φ s) (hc : ∀ i c s, φ (setChart i c s) = φ s)
    (hn : ∀ n k d s, φ (raiseNote n k d s) = φ s) (hf : ∀ i s, φ (freeSlot i s) = φ s) :
    ∀ (n : Nat) (s : State), φ (secondChance n s).1 = φ s := by
  intro n
  induction n with
  | zero => intro s; rfl
  | succ n ih =>
    intro s
    unfold secondChance
    dsimp only
    split
    · rw [ih, hp]
    · split
      · rw [ih, hp]
      · split
        · rw [ih, hc, hp]
        · dsimp only; rw [hn, hf, hp]

@[simp] theorem secondChance_keeps (n : Nat) :
    ((secondChance n s).1).phase = s.phase ∧ ((secondChance n s).1).clock = s.clock ∧
    ((secondChance n s).1).lcu = s.lcu ∧ ((secondChance n s).1).lfr = s.lfr ∧
    ((secondChance n s).1).cst.pages = s.cst.pages ∧ ((secondChance n s).1).cst.ownSequence = s.cst.ownSequence ∧
    ((secondChance n s).1).xen.tallyDue = s.xen.tallyDue ∧ ((secondChance n s).1).xen.tallyPtr = s.xen.tallyPtr ∧
    ((secondChance n s).1).slc.lineState = s.slc.lineState ∧
    ((secondChance n s).1).slc.recessiveRun = s.slc.recessiveRun ∧ ((secondChance n s).1).slc.rx = s.slc.rx ∧
    ((secondChance n s).1).slc.role = s.slc.role ∧ ((secondChance n s).1).slc.damageRun = s.slc.damageRun ∧
    ((secondChance n s).1).slc.silent = s.slc.silent ∧ ((secondChance n s).1).slc.sle = s.slc.sle ∧
    ((secondChance n s).1).slc.sltRecessive = s.slc.sltRecessive ∧ ((secondChance n s).1).ssv.own = s.ssv.own ∧
    ((secondChance n s).1).ssv.boot = s.ssv.boot ∧ ((secondChance n s).1).ssv.status = s.ssv.status ∧
    ((secondChance n s).1).ssv.version = s.ssv.version ∧ ((secondChance n s).1).ssv.minuteDue = s.ssv.minuteDue ∧
    ((secondChance n s).1).ssv.rosterDue = s.ssv.rosterDue ∧ ((secondChance n s).1).ssv.peers = s.ssv.peers ∧
    ((secondChance n s).1).ssv.bootBus = s.ssv.bootBus ∧
    ((secondChance n s).1).ssv.bootSteps = s.ssv.bootSteps ∧ ((secondChance n s).1).pending = s.pending := by
  exact ⟨
    secondChance_preserves (fun s => s.phase) (by simp) (by simp) (by simp) (by simp) n s,
    secondChance_preserves (fun s => s.clock) (by simp) (by simp) (by simp) (by simp) n s,
    secondChance_preserves (fun s => s.lcu) (by simp) (by simp) (by simp) (by simp) n s,
    secondChance_preserves (fun s => s.lfr) (by simp) (by simp) (by simp) (by simp) n s,
    secondChance_preserves (fun s => s.cst.pages) (by simp) (by simp) (by simp) (by simp) n s,
    secondChance_preserves (fun s => s.cst.ownSequence) (by simp) (by simp) (by simp) (by simp) n s,
    secondChance_preserves (fun s => s.xen.tallyDue) (by simp) (by simp) (by simp) (by simp) n s,
    secondChance_preserves (fun s => s.xen.tallyPtr) (by simp) (by simp) (by simp) (by simp) n s,
    secondChance_preserves (fun s => s.slc.lineState) (by simp) (by simp) (by simp) (by simp) n s,
    secondChance_preserves (fun s => s.slc.recessiveRun) (by simp) (by simp) (by simp) (by simp) n s,
    secondChance_preserves (fun s => s.slc.rx) (by simp) (by simp) (by simp) (by simp) n s,
    secondChance_preserves (fun s => s.slc.role) (by simp) (by simp) (by simp) (by simp) n s,
    secondChance_preserves (fun s => s.slc.damageRun) (by simp) (by simp) (by simp) (by simp) n s,
    secondChance_preserves (fun s => s.slc.silent) (by simp) (by simp) (by simp) (by simp) n s,
    secondChance_preserves (fun s => s.slc.sle) (by simp) (by simp) (by simp) (by simp) n s,
    secondChance_preserves (fun s => s.slc.sltRecessive) (by simp) (by simp) (by simp) (by simp) n s,
    secondChance_preserves (fun s => s.ssv.own) (by simp) (by simp) (by simp) (by simp) n s,
    secondChance_preserves (fun s => s.ssv.boot) (by simp) (by simp) (by simp) (by simp) n s,
    secondChance_preserves (fun s => s.ssv.status) (by simp) (by simp) (by simp) (by simp) n s,
    secondChance_preserves (fun s => s.ssv.version) (by simp) (by simp) (by simp) (by simp) n s,
    secondChance_preserves (fun s => s.ssv.minuteDue) (by simp) (by simp) (by simp) (by simp) n s,
    secondChance_preserves (fun s => s.ssv.rosterDue) (by simp) (by simp) (by simp) (by simp) n s,
    secondChance_preserves (fun s => s.ssv.peers) (by simp) (by simp) (by simp) (by simp) n s,
    secondChance_preserves (fun s => s.ssv.bootBus) (by simp) (by simp) (by simp) (by simp) n s,
    secondChance_preserves (fun s => s.ssv.bootSteps) (by simp) (by simp) (by simp) (by simp) n s,
    secondChance_preserves (fun s => s.pending) (by simp) (by simp) (by simp) (by simp) n s⟩
@[simp] theorem findSlot_keeps :
    ((findSlot s).1).phase = s.phase ∧ ((findSlot s).1).clock = s.clock ∧ ((findSlot s).1).lcu = s.lcu ∧
    ((findSlot s).1).lfr = s.lfr ∧ ((findSlot s).1).cst.pages = s.cst.pages ∧
    ((findSlot s).1).cst.ownSequence = s.cst.ownSequence ∧ ((findSlot s).1).xen.tallyDue = s.xen.tallyDue ∧
    ((findSlot s).1).xen.tallyPtr = s.xen.tallyPtr ∧ ((findSlot s).1).slc.lineState = s.slc.lineState ∧
    ((findSlot s).1).slc.recessiveRun = s.slc.recessiveRun ∧ ((findSlot s).1).slc.rx = s.slc.rx ∧
    ((findSlot s).1).slc.role = s.slc.role ∧ ((findSlot s).1).slc.damageRun = s.slc.damageRun ∧
    ((findSlot s).1).slc.silent = s.slc.silent ∧ ((findSlot s).1).slc.sle = s.slc.sle ∧
    ((findSlot s).1).slc.sltRecessive = s.slc.sltRecessive ∧ ((findSlot s).1).ssv.own = s.ssv.own ∧
    ((findSlot s).1).ssv.boot = s.ssv.boot ∧ ((findSlot s).1).ssv.status = s.ssv.status ∧
    ((findSlot s).1).ssv.version = s.ssv.version ∧ ((findSlot s).1).ssv.minuteDue = s.ssv.minuteDue ∧
    ((findSlot s).1).ssv.rosterDue = s.ssv.rosterDue ∧ ((findSlot s).1).ssv.peers = s.ssv.peers ∧
    ((findSlot s).1).ssv.bootBus = s.ssv.bootBus ∧
    ((findSlot s).1).ssv.bootSteps = s.ssv.bootSteps ∧ ((findSlot s).1).pending = s.pending := by
  refine ⟨?_, ?_, ?_, ?_, ?_, ?_, ?_, ?_, ?_, ?_, ?_, ?_, ?_, ?_, ?_, ?_, ?_, ?_, ?_, ?_, ?_, ?_, ?_, ?_, ?_, ?_⟩ <;>
    (unfold findSlot; split <;> simp)
@[simp] theorem installChart_keeps (i : SlotNo) (c : Chart) :
    (installChart i c s).phase = s.phase ∧ (installChart i c s).clock = s.clock ∧ (installChart i c s).lcu = s.lcu ∧
    (installChart i c s).lfr = s.lfr ∧ (installChart i c s).cst.pages = s.cst.pages ∧
    (installChart i c s).cst.free = s.cst.free ∧ (installChart i c s).cst.poolReported = s.cst.poolReported ∧
    (installChart i c s).cst.evictPtr = s.cst.evictPtr ∧ (installChart i c s).cst.ownSequence = s.cst.ownSequence ∧
    (installChart i c s).xen.tallyDue = s.xen.tallyDue ∧ (installChart i c s).xen.tallyPtr = s.xen.tallyPtr ∧
    (installChart i c s).xen.claims = s.xen.claims ∧ (installChart i c s).xen.build = s.xen.build ∧
    (installChart i c s).xen.assemblies = s.xen.assemblies ∧ (installChart i c s).slc = s.slc ∧
    (installChart i c s).ssv = s.ssv ∧ (installChart i c s).pending = s.pending := by
  refine ⟨?_, ?_, ?_, ?_, ?_, ?_, ?_, ?_, ?_, ?_, ?_, ?_, ?_, ?_, ?_, ?_, ?_⟩ <;>
    (rfl)
@[simp] theorem queueOpen_keeps (o : Block) (i : SlotNo) :
    (queueOpen o i s).phase = s.phase ∧ (queueOpen o i s).clock = s.clock ∧ (queueOpen o i s).lcu = s.lcu ∧
    (queueOpen o i s).lfr = s.lfr ∧ (queueOpen o i s).cst = s.cst ∧ (queueOpen o i s).xen.views = s.xen.views ∧
    (queueOpen o i s).xen.tallyDue = s.xen.tallyDue ∧ (queueOpen o i s).xen.tallyPtr = s.xen.tallyPtr ∧
    (queueOpen o i s).xen.claims = s.xen.claims ∧ (queueOpen o i s).xen.build = s.xen.build ∧
    (queueOpen o i s).xen.assemblies = s.xen.assemblies ∧ (queueOpen o i s).slc.lineState = s.slc.lineState ∧
    (queueOpen o i s).slc.recessiveRun = s.slc.recessiveRun ∧ (queueOpen o i s).slc.rx = s.slc.rx ∧
    (queueOpen o i s).slc.role = s.slc.role ∧ (queueOpen o i s).slc.damageRun = s.slc.damageRun ∧
    (queueOpen o i s).slc.silent = s.slc.silent ∧ (queueOpen o i s).slc.sle = s.slc.sle ∧
    (queueOpen o i s).slc.sltRecessive = s.slc.sltRecessive ∧ (queueOpen o i s).ssv.own = s.ssv.own ∧
    (queueOpen o i s).ssv.boot = s.ssv.boot ∧ (queueOpen o i s).ssv.status = s.ssv.status ∧
    (queueOpen o i s).ssv.version = s.ssv.version ∧ (queueOpen o i s).ssv.minuteDue = s.ssv.minuteDue ∧
    (queueOpen o i s).ssv.rosterDue = s.ssv.rosterDue ∧ (queueOpen o i s).ssv.peers = s.ssv.peers ∧
    (queueOpen o i s).ssv.bootBus = s.ssv.bootBus ∧
    (queueOpen o i s).ssv.bootSteps = s.ssv.bootSteps ∧ (queueOpen o i s).pending = s.pending := by
  refine ⟨?_, ?_, ?_, ?_, ?_, ?_, ?_, ?_, ?_, ?_, ?_, ?_, ?_, ?_, ?_, ?_, ?_, ?_, ?_, ?_, ?_, ?_, ?_, ?_, ?_, ?_, ?_, ?_, ?_⟩ <;>
    (unfold queueOpen; split <;> simp)
@[simp] theorem passSequence_keeps (q : Byte) :
    (passSequence q s).phase = s.phase ∧ (passSequence q s).clock = s.clock ∧ (passSequence q s).lcu = s.lcu ∧
    (passSequence q s).lfr = s.lfr ∧ (passSequence q s).cst.pages = s.cst.pages ∧
    (passSequence q s).cst.free = s.cst.free ∧ (passSequence q s).cst.poolReported = s.cst.poolReported ∧
    (passSequence q s).cst.slots = s.cst.slots ∧ (passSequence q s).cst.evictPtr = s.cst.evictPtr ∧
    (passSequence q s).xen = s.xen ∧ (passSequence q s).slc = s.slc ∧ (passSequence q s).ssv = s.ssv ∧
    (passSequence q s).pending = s.pending := by
  refine ⟨?_, ?_, ?_, ?_, ?_, ?_, ?_, ?_, ?_, ?_, ?_, ?_, ?_⟩ <;>
    (rfl)
@[simp] theorem bindSlot_keeps (i : SlotNo) (o : Int) (t : Nat) :
    (bindSlot i o t s).phase = s.phase ∧ (bindSlot i o t s).clock = s.clock ∧ (bindSlot i o t s).lcu = s.lcu ∧
    (bindSlot i o t s).lfr = s.lfr ∧ (bindSlot i o t s).cst.pages = s.cst.pages ∧
    (bindSlot i o t s).cst.free = s.cst.free ∧ (bindSlot i o t s).cst.poolReported = s.cst.poolReported ∧
    (bindSlot i o t s).cst.evictPtr = s.cst.evictPtr ∧ (bindSlot i o t s).cst.ownSequence = s.cst.ownSequence ∧
    (bindSlot i o t s).xen = s.xen ∧ (bindSlot i o t s).slc.lineState = s.slc.lineState ∧
    (bindSlot i o t s).slc.recessiveRun = s.slc.recessiveRun ∧ (bindSlot i o t s).slc.rx = s.slc.rx ∧
    (bindSlot i o t s).slc.role = s.slc.role ∧ (bindSlot i o t s).slc.damageRun = s.slc.damageRun ∧
    (bindSlot i o t s).slc.silent = s.slc.silent ∧ (bindSlot i o t s).slc.sle = s.slc.sle ∧
    (bindSlot i o t s).slc.sltRecessive = s.slc.sltRecessive ∧ (bindSlot i o t s).ssv.own = s.ssv.own ∧
    (bindSlot i o t s).ssv.boot = s.ssv.boot ∧ (bindSlot i o t s).ssv.status = s.ssv.status ∧
    (bindSlot i o t s).ssv.version = s.ssv.version ∧ (bindSlot i o t s).ssv.minuteDue = s.ssv.minuteDue ∧
    (bindSlot i o t s).ssv.rosterDue = s.ssv.rosterDue ∧ (bindSlot i o t s).ssv.peers = s.ssv.peers ∧
    (bindSlot i o t s).ssv.bootBus = s.ssv.bootBus ∧
    (bindSlot i o t s).ssv.bootSteps = s.ssv.bootSteps ∧ (bindSlot i o t s).pending = s.pending := by
  refine ⟨?_, ?_, ?_, ?_, ?_, ?_, ?_, ?_, ?_, ?_, ?_, ?_, ?_, ?_, ?_, ?_, ?_, ?_, ?_, ?_, ?_, ?_, ?_, ?_, ?_, ?_, ?_, ?_⟩ <;>
    (unfold bindSlot; split <;> simp)
@[simp] theorem requestSlot_keeps (r : Rate) (t : Nat) :
    ((requestSlot r t s).1).phase = s.phase ∧ ((requestSlot r t s).1).clock = s.clock ∧
    ((requestSlot r t s).1).lcu = s.lcu ∧ ((requestSlot r t s).1).lfr = s.lfr ∧
    ((requestSlot r t s).1).cst.pages = s.cst.pages ∧ ((requestSlot r t s).1).xen.tallyDue = s.xen.tallyDue ∧
    ((requestSlot r t s).1).xen.tallyPtr = s.xen.tallyPtr ∧ ((requestSlot r t s).1).slc.lineState = s.slc.lineState ∧
    ((requestSlot r t s).1).slc.recessiveRun = s.slc.recessiveRun ∧ ((requestSlot r t s).1).slc.rx = s.slc.rx ∧
    ((requestSlot r t s).1).slc.role = s.slc.role ∧ ((requestSlot r t s).1).slc.damageRun = s.slc.damageRun ∧
    ((requestSlot r t s).1).slc.silent = s.slc.silent ∧ ((requestSlot r t s).1).slc.sle = s.slc.sle ∧
    ((requestSlot r t s).1).slc.sltRecessive = s.slc.sltRecessive ∧ ((requestSlot r t s).1).ssv.own = s.ssv.own ∧
    ((requestSlot r t s).1).ssv.boot = s.ssv.boot ∧ ((requestSlot r t s).1).ssv.status = s.ssv.status ∧
    ((requestSlot r t s).1).ssv.version = s.ssv.version ∧ ((requestSlot r t s).1).ssv.minuteDue = s.ssv.minuteDue ∧
    ((requestSlot r t s).1).ssv.rosterDue = s.ssv.rosterDue ∧ ((requestSlot r t s).1).ssv.peers = s.ssv.peers ∧
    ((requestSlot r t s).1).ssv.bootBus = s.ssv.bootBus ∧
    ((requestSlot r t s).1).ssv.bootSteps = s.ssv.bootSteps ∧ ((requestSlot r t s).1).pending = s.pending := by
  refine ⟨?_, ?_, ?_, ?_, ?_, ?_, ?_, ?_, ?_, ?_, ?_, ?_, ?_, ?_, ?_, ?_, ?_, ?_, ?_, ?_, ?_, ?_, ?_, ?_, ?_⟩ <;>
    (unfold requestSlot; split <;> (try simp only) <;> (try split) <;> simp)
@[simp] theorem endLocalImage_keeps (i : SlotNo) (r : CloseReason) (h : Option Nat) :
    (endLocalImage i r h s).phase = s.phase ∧ (endLocalImage i r h s).clock = s.clock ∧
    (endLocalImage i r h s).lcu = s.lcu ∧ (endLocalImage i r h s).lfr = s.lfr ∧
    (endLocalImage i r h s).cst.pages = s.cst.pages ∧ (endLocalImage i r h s).cst.free = s.cst.free ∧
    (endLocalImage i r h s).cst.poolReported = s.cst.poolReported ∧
    (endLocalImage i r h s).cst.evictPtr = s.cst.evictPtr ∧
    (endLocalImage i r h s).cst.ownSequence = s.cst.ownSequence ∧ (endLocalImage i r h s).xen.views = s.xen.views ∧
    (endLocalImage i r h s).xen.tallyDue = s.xen.tallyDue ∧ (endLocalImage i r h s).xen.tallyPtr = s.xen.tallyPtr ∧
    (endLocalImage i r h s).xen.claims = s.xen.claims ∧ (endLocalImage i r h s).xen.build = s.xen.build ∧
    (endLocalImage i r h s).xen.assemblies = s.xen.assemblies ∧
    (endLocalImage i r h s).slc.lineState = s.slc.lineState ∧
    (endLocalImage i r h s).slc.recessiveRun = s.slc.recessiveRun ∧ (endLocalImage i r h s).slc.rx = s.slc.rx ∧
    (endLocalImage i r h s).slc.role = s.slc.role ∧ (endLocalImage i r h s).slc.damageRun = s.slc.damageRun ∧
    (endLocalImage i r h s).slc.silent = s.slc.silent ∧ (endLocalImage i r h s).slc.sle = s.slc.sle ∧
    (endLocalImage i r h s).slc.sltRecessive = s.slc.sltRecessive ∧ (endLocalImage i r h s).ssv.own = s.ssv.own ∧
    (endLocalImage i r h s).ssv.boot = s.ssv.boot ∧ (endLocalImage i r h s).ssv.status = s.ssv.status ∧
    (endLocalImage i r h s).ssv.version = s.ssv.version ∧ (endLocalImage i r h s).ssv.minuteDue = s.ssv.minuteDue ∧
    (endLocalImage i r h s).ssv.rosterDue = s.ssv.rosterDue ∧ (endLocalImage i r h s).ssv.peers = s.ssv.peers ∧
    (endLocalImage i r h s).ssv.bootBus = s.ssv.bootBus ∧
    (endLocalImage i r h s).ssv.bootSteps = s.ssv.bootSteps ∧ (endLocalImage i r h s).pending = s.pending := by
  refine ⟨?_, ?_, ?_, ?_, ?_, ?_, ?_, ?_, ?_, ?_, ?_, ?_, ?_, ?_, ?_, ?_, ?_, ?_, ?_, ?_, ?_, ?_, ?_, ?_, ?_, ?_, ?_, ?_, ?_, ?_, ?_, ?_, ?_⟩ <;>
    (unfold endLocalImage; split <;> simp)

end Sys2Proof.Machine
end

