-- ==== Sys2Proof/Laws/Picture.lean ====
section
/-! SUPPORT. What the picture's path (framer, windows, words) leaves alone, field by field. -/

set_option linter.unnecessarySeqFocus false
set_option linter.unusedSimpArgs false
set_option linter.unusedTactic false
set_option linter.unreachableTactic false

namespace Sys2Proof.Machine

variable (s : State)

/-! ## Lines and commits (R29 to R33) -/

@[simp] theorem setTail_keeps (t : List TailLine) :
    (setTail t s).phase = s.phase ∧ (setTail t s).clock = s.clock ∧ (setTail t s).lcu = s.lcu ∧
    (setTail t s).cst = s.cst ∧ (setTail t s).xen = s.xen ∧ (setTail t s).slc = s.slc ∧ (setTail t s).ssv = s.ssv ∧
    (setTail t s).pending = s.pending := by
  refine ⟨?_, ?_, ?_, ?_, ?_, ?_, ?_, ?_⟩ <;>
    (rfl)
@[simp] theorem commitLine_keeps (l : TailLine) :
    (commitLine l s).phase = s.phase ∧ (commitLine l s).clock = s.clock ∧ (commitLine l s).lcu = s.lcu ∧
    (commitLine l s).cst.evictPtr = s.cst.evictPtr ∧ (commitLine l s).cst.ownSequence = s.cst.ownSequence ∧
    (commitLine l s).xen = s.xen ∧ (commitLine l s).slc.lineState = s.slc.lineState ∧
    (commitLine l s).slc.recessiveRun = s.slc.recessiveRun ∧ (commitLine l s).slc.rx = s.slc.rx ∧
    (commitLine l s).slc.role = s.slc.role ∧ (commitLine l s).slc.damageRun = s.slc.damageRun ∧
    (commitLine l s).slc.silent = s.slc.silent ∧ (commitLine l s).slc.sle = s.slc.sle ∧
    (commitLine l s).slc.sltRecessive = s.slc.sltRecessive ∧ (commitLine l s).ssv.own = s.ssv.own ∧
    (commitLine l s).ssv.boot = s.ssv.boot ∧ (commitLine l s).ssv.status = s.ssv.status ∧
    (commitLine l s).ssv.version = s.ssv.version ∧ (commitLine l s).ssv.minuteDue = s.ssv.minuteDue ∧
    (commitLine l s).ssv.rosterDue = s.ssv.rosterDue ∧ (commitLine l s).ssv.peers = s.ssv.peers ∧
    (commitLine l s).ssv.bootBus = s.ssv.bootBus ∧
    (commitLine l s).ssv.bootSteps = s.ssv.bootSteps ∧ (commitLine l s).pending = s.pending := by
  refine ⟨?_, ?_, ?_, ?_, ?_, ?_, ?_, ?_, ?_, ?_, ?_, ?_, ?_, ?_, ?_, ?_, ?_, ?_, ?_, ?_, ?_, ?_, ?_, ?_⟩ <;>
    (unfold commitLine; dsimp only; split <;> simp)
/-- What committing from the head keeps: anything a commit and an update of the framer keep (R32). -/
theorem commitDue_preserves {α : Type} (φ : State → α) (hl : ∀ f s, φ (setLfr f s) = φ s) (hc : ∀ l s, φ (commitLine l s) = φ s)
    (pos : Position) : ∀ (t : List TailLine) (s : State), φ (commitDue pos t s) = φ s := by
  intro t
  induction t with
  | nil => intro s; exact hl _ _
  | cons l rest ih =>
    intro s
    unfold commitDue
    split
    · rw [ih, hc]
    · exact hl _ _

/-- What a run over a list keeps: anything each of its acts keeps. -/
theorem foldl_preserves {α β : Type} (φ : State → α) (f : State → β → State) (h : ∀ s b, φ (f s b) = φ s) :
    ∀ (l : List β) (s : State), φ (l.foldl f s) = φ s := by
  intro l
  induction l with
  | nil => intro s; rfl
  | cons b rest ih => intro s; simp only [List.foldl_cons]; rw [ih, h]

@[simp] theorem commitDue_keeps (p : Position) (t : List TailLine) :
    (commitDue p t s).phase = s.phase ∧ (commitDue p t s).clock = s.clock ∧ (commitDue p t s).lcu = s.lcu ∧
    (commitDue p t s).cst.evictPtr = s.cst.evictPtr ∧ (commitDue p t s).cst.ownSequence = s.cst.ownSequence ∧
    (commitDue p t s).xen = s.xen ∧ (commitDue p t s).slc.lineState = s.slc.lineState ∧
    (commitDue p t s).slc.recessiveRun = s.slc.recessiveRun ∧ (commitDue p t s).slc.rx = s.slc.rx ∧
    (commitDue p t s).slc.role = s.slc.role ∧ (commitDue p t s).slc.damageRun = s.slc.damageRun ∧
    (commitDue p t s).slc.silent = s.slc.silent ∧ (commitDue p t s).slc.sle = s.slc.sle ∧
    (commitDue p t s).slc.sltRecessive = s.slc.sltRecessive ∧ (commitDue p t s).ssv.own = s.ssv.own ∧
    (commitDue p t s).ssv.boot = s.ssv.boot ∧ (commitDue p t s).ssv.status = s.ssv.status ∧
    (commitDue p t s).ssv.version = s.ssv.version ∧ (commitDue p t s).ssv.minuteDue = s.ssv.minuteDue ∧
    (commitDue p t s).ssv.rosterDue = s.ssv.rosterDue ∧ (commitDue p t s).ssv.peers = s.ssv.peers ∧
    (commitDue p t s).ssv.bootBus = s.ssv.bootBus ∧
    (commitDue p t s).ssv.bootSteps = s.ssv.bootSteps ∧ (commitDue p t s).pending = s.pending := by
  exact ⟨
    commitDue_preserves (fun s => s.phase) (by simp) (by simp) p t s,
    commitDue_preserves (fun s => s.clock) (by simp) (by simp) p t s,
    commitDue_preserves (fun s => s.lcu) (by simp) (by simp) p t s,
    commitDue_preserves (fun s => s.cst.evictPtr) (by simp) (by simp) p t s,
    commitDue_preserves (fun s => s.cst.ownSequence) (by simp) (by simp) p t s,
    commitDue_preserves (fun s => s.xen) (by simp) (by simp) p t s,
    commitDue_preserves (fun s => s.slc.lineState) (by simp) (by simp) p t s,
    commitDue_preserves (fun s => s.slc.recessiveRun) (by simp) (by simp) p t s,
    commitDue_preserves (fun s => s.slc.rx) (by simp) (by simp) p t s,
    commitDue_preserves (fun s => s.slc.role) (by simp) (by simp) p t s,
    commitDue_preserves (fun s => s.slc.damageRun) (by simp) (by simp) p t s,
    commitDue_preserves (fun s => s.slc.silent) (by simp) (by simp) p t s,
    commitDue_preserves (fun s => s.slc.sle) (by simp) (by simp) p t s,
    commitDue_preserves (fun s => s.slc.sltRecessive) (by simp) (by simp) p t s,
    commitDue_preserves (fun s => s.ssv.own) (by simp) (by simp) p t s,
    commitDue_preserves (fun s => s.ssv.boot) (by simp) (by simp) p t s,
    commitDue_preserves (fun s => s.ssv.status) (by simp) (by simp) p t s,
    commitDue_preserves (fun s => s.ssv.version) (by simp) (by simp) p t s,
    commitDue_preserves (fun s => s.ssv.minuteDue) (by simp) (by simp) p t s,
    commitDue_preserves (fun s => s.ssv.rosterDue) (by simp) (by simp) p t s,
    commitDue_preserves (fun s => s.ssv.peers) (by simp) (by simp) p t s,
    commitDue_preserves (fun s => s.ssv.bootBus) (by simp) (by simp) p t s,
    commitDue_preserves (fun s => s.ssv.bootSteps) (by simp) (by simp) p t s,
    commitDue_preserves (fun s => s.pending) (by simp) (by simp) p t s⟩
@[simp] theorem commitTail_keeps (k : TailLine → Bool) :
    (commitTail k s).phase = s.phase ∧ (commitTail k s).clock = s.clock ∧ (commitTail k s).lcu = s.lcu ∧
    (commitTail k s).cst.evictPtr = s.cst.evictPtr ∧ (commitTail k s).cst.ownSequence = s.cst.ownSequence ∧
    (commitTail k s).xen = s.xen ∧ (commitTail k s).slc.lineState = s.slc.lineState ∧
    (commitTail k s).slc.recessiveRun = s.slc.recessiveRun ∧ (commitTail k s).slc.rx = s.slc.rx ∧
    (commitTail k s).slc.role = s.slc.role ∧ (commitTail k s).slc.damageRun = s.slc.damageRun ∧
    (commitTail k s).slc.silent = s.slc.silent ∧ (commitTail k s).slc.sle = s.slc.sle ∧
    (commitTail k s).slc.sltRecessive = s.slc.sltRecessive ∧ (commitTail k s).ssv.own = s.ssv.own ∧
    (commitTail k s).ssv.boot = s.ssv.boot ∧ (commitTail k s).ssv.status = s.ssv.status ∧
    (commitTail k s).ssv.version = s.ssv.version ∧ (commitTail k s).ssv.minuteDue = s.ssv.minuteDue ∧
    (commitTail k s).ssv.rosterDue = s.ssv.rosterDue ∧ (commitTail k s).ssv.peers = s.ssv.peers ∧
    (commitTail k s).ssv.bootBus = s.ssv.bootBus ∧
    (commitTail k s).ssv.bootSteps = s.ssv.bootSteps ∧ (commitTail k s).pending = s.pending := by
  exact ⟨
    foldl_preserves (fun s => s.phase) (fun s l => commitLine l s) (by simp) _ s,
    foldl_preserves (fun s => s.clock) (fun s l => commitLine l s) (by simp) _ s,
    foldl_preserves (fun s => s.lcu) (fun s l => commitLine l s) (by simp) _ s,
    foldl_preserves (fun s => s.cst.evictPtr) (fun s l => commitLine l s) (by simp) _ s,
    foldl_preserves (fun s => s.cst.ownSequence) (fun s l => commitLine l s) (by simp) _ s,
    foldl_preserves (fun s => s.xen) (fun s l => commitLine l s) (by simp) _ s,
    foldl_preserves (fun s => s.slc.lineState) (fun s l => commitLine l s) (by simp) _ s,
    foldl_preserves (fun s => s.slc.recessiveRun) (fun s l => commitLine l s) (by simp) _ s,
    foldl_preserves (fun s => s.slc.rx) (fun s l => commitLine l s) (by simp) _ s,
    foldl_preserves (fun s => s.slc.role) (fun s l => commitLine l s) (by simp) _ s,
    foldl_preserves (fun s => s.slc.damageRun) (fun s l => commitLine l s) (by simp) _ s,
    foldl_preserves (fun s => s.slc.silent) (fun s l => commitLine l s) (by simp) _ s,
    foldl_preserves (fun s => s.slc.sle) (fun s l => commitLine l s) (by simp) _ s,
    foldl_preserves (fun s => s.slc.sltRecessive) (fun s l => commitLine l s) (by simp) _ s,
    foldl_preserves (fun s => s.ssv.own) (fun s l => commitLine l s) (by simp) _ s,
    foldl_preserves (fun s => s.ssv.boot) (fun s l => commitLine l s) (by simp) _ s,
    foldl_preserves (fun s => s.ssv.status) (fun s l => commitLine l s) (by simp) _ s,
    foldl_preserves (fun s => s.ssv.version) (fun s l => commitLine l s) (by simp) _ s,
    foldl_preserves (fun s => s.ssv.minuteDue) (fun s l => commitLine l s) (by simp) _ s,
    foldl_preserves (fun s => s.ssv.rosterDue) (fun s l => commitLine l s) (by simp) _ s,
    foldl_preserves (fun s => s.ssv.peers) (fun s l => commitLine l s) (by simp) _ s,
    foldl_preserves (fun s => s.ssv.bootBus) (fun s l => commitLine l s) (by simp) _ s,
    foldl_preserves (fun s => s.ssv.bootSteps) (fun s l => commitLine l s) (by simp) _ s,
    foldl_preserves (fun s => s.pending) (fun s l => commitLine l s) (by simp) _ s⟩
@[simp] theorem finishImage_keeps (r : CloseReason) (b : Bool) :
    (finishImage r b s).phase = s.phase ∧ (finishImage r b s).clock = s.clock ∧ (finishImage r b s).lcu = s.lcu ∧
    (finishImage r b s).cst.evictPtr = s.cst.evictPtr ∧ (finishImage r b s).cst.ownSequence = s.cst.ownSequence ∧
    (finishImage r b s).xen.views = s.xen.views ∧ (finishImage r b s).xen.tallyDue = s.xen.tallyDue ∧
    (finishImage r b s).xen.tallyPtr = s.xen.tallyPtr ∧ (finishImage r b s).xen.claims = s.xen.claims ∧
    (finishImage r b s).xen.build = s.xen.build ∧ (finishImage r b s).xen.assemblies = s.xen.assemblies ∧
    (finishImage r b s).slc.lineState = s.slc.lineState ∧ (finishImage r b s).slc.recessiveRun = s.slc.recessiveRun ∧
    (finishImage r b s).slc.rx = s.slc.rx ∧ (finishImage r b s).slc.role = s.slc.role ∧
    (finishImage r b s).slc.damageRun = s.slc.damageRun ∧ (finishImage r b s).slc.silent = s.slc.silent ∧
    (finishImage r b s).slc.sle = s.slc.sle ∧ (finishImage r b s).slc.sltRecessive = s.slc.sltRecessive ∧
    (finishImage r b s).ssv.own = s.ssv.own ∧ (finishImage r b s).ssv.boot = s.ssv.boot ∧
    (finishImage r b s).ssv.status = s.ssv.status ∧ (finishImage r b s).ssv.version = s.ssv.version ∧
    (finishImage r b s).ssv.minuteDue = s.ssv.minuteDue ∧ (finishImage r b s).ssv.rosterDue = s.ssv.rosterDue ∧
    (finishImage r b s).ssv.peers = s.ssv.peers ∧ (finishImage r b s).ssv.bootBus = s.ssv.bootBus ∧
    (finishImage r b s).ssv.bootSteps = s.ssv.bootSteps ∧
    (finishImage r b s).pending = s.pending := by
  refine ⟨?_, ?_, ?_, ?_, ?_, ?_, ?_, ?_, ?_, ?_, ?_, ?_, ?_, ?_, ?_, ?_, ?_, ?_, ?_, ?_, ?_, ?_, ?_, ?_, ?_, ?_, ?_, ?_, ?_⟩ <;>
    (cases h : s.lfr.bound <;> simp [finishImage, h])
@[simp] theorem endByTone_keeps (r : CloseReason) (p : Position) (b : Bool) :
    (endByTone r p b s).phase = s.phase ∧ (endByTone r p b s).clock = s.clock ∧ (endByTone r p b s).lcu = s.lcu ∧
    (endByTone r p b s).cst.evictPtr = s.cst.evictPtr ∧ (endByTone r p b s).cst.ownSequence = s.cst.ownSequence ∧
    (endByTone r p b s).xen.views = s.xen.views ∧ (endByTone r p b s).xen.tallyDue = s.xen.tallyDue ∧
    (endByTone r p b s).xen.tallyPtr = s.xen.tallyPtr ∧ (endByTone r p b s).xen.claims = s.xen.claims ∧
    (endByTone r p b s).xen.build = s.xen.build ∧ (endByTone r p b s).xen.assemblies = s.xen.assemblies ∧
    (endByTone r p b s).slc.lineState = s.slc.lineState ∧ (endByTone r p b s).slc.recessiveRun = s.slc.recessiveRun ∧
    (endByTone r p b s).slc.rx = s.slc.rx ∧ (endByTone r p b s).slc.role = s.slc.role ∧
    (endByTone r p b s).slc.damageRun = s.slc.damageRun ∧ (endByTone r p b s).slc.silent = s.slc.silent ∧
    (endByTone r p b s).slc.sle = s.slc.sle ∧ (endByTone r p b s).slc.sltRecessive = s.slc.sltRecessive ∧
    (endByTone r p b s).ssv.own = s.ssv.own ∧ (endByTone r p b s).ssv.boot = s.ssv.boot ∧
    (endByTone r p b s).ssv.status = s.ssv.status ∧ (endByTone r p b s).ssv.version = s.ssv.version ∧
    (endByTone r p b s).ssv.minuteDue = s.ssv.minuteDue ∧ (endByTone r p b s).ssv.rosterDue = s.ssv.rosterDue ∧
    (endByTone r p b s).ssv.peers = s.ssv.peers ∧ (endByTone r p b s).ssv.bootBus = s.ssv.bootBus ∧
    (endByTone r p b s).ssv.bootSteps = s.ssv.bootSteps ∧
    (endByTone r p b s).pending = s.pending := by
  refine ⟨?_, ?_, ?_, ?_, ?_, ?_, ?_, ?_, ?_, ?_, ?_, ?_, ?_, ?_, ?_, ?_, ?_, ?_, ?_, ?_, ?_, ?_, ?_, ?_, ?_, ?_, ?_, ?_, ?_⟩ <;>
    (simp [endByTone])
@[simp] theorem endByFadeOrLimit_keeps (r : CloseReason) :
    (endByFadeOrLimit r s).phase = s.phase ∧ (endByFadeOrLimit r s).clock = s.clock ∧
    (endByFadeOrLimit r s).lcu = s.lcu ∧ (endByFadeOrLimit r s).cst.evictPtr = s.cst.evictPtr ∧
    (endByFadeOrLimit r s).cst.ownSequence = s.cst.ownSequence ∧ (endByFadeOrLimit r s).xen.views = s.xen.views ∧
    (endByFadeOrLimit r s).xen.tallyDue = s.xen.tallyDue ∧ (endByFadeOrLimit r s).xen.tallyPtr = s.xen.tallyPtr ∧
    (endByFadeOrLimit r s).xen.claims = s.xen.claims ∧ (endByFadeOrLimit r s).xen.build = s.xen.build ∧
    (endByFadeOrLimit r s).xen.assemblies = s.xen.assemblies ∧
    (endByFadeOrLimit r s).slc.lineState = s.slc.lineState ∧
    (endByFadeOrLimit r s).slc.recessiveRun = s.slc.recessiveRun ∧ (endByFadeOrLimit r s).slc.rx = s.slc.rx ∧
    (endByFadeOrLimit r s).slc.role = s.slc.role ∧ (endByFadeOrLimit r s).slc.damageRun = s.slc.damageRun ∧
    (endByFadeOrLimit r s).slc.silent = s.slc.silent ∧ (endByFadeOrLimit r s).slc.sle = s.slc.sle ∧
    (endByFadeOrLimit r s).slc.sltRecessive = s.slc.sltRecessive ∧ (endByFadeOrLimit r s).ssv.own = s.ssv.own ∧
    (endByFadeOrLimit r s).ssv.boot = s.ssv.boot ∧ (endByFadeOrLimit r s).ssv.status = s.ssv.status ∧
    (endByFadeOrLimit r s).ssv.version = s.ssv.version ∧ (endByFadeOrLimit r s).ssv.minuteDue = s.ssv.minuteDue ∧
    (endByFadeOrLimit r s).ssv.rosterDue = s.ssv.rosterDue ∧ (endByFadeOrLimit r s).ssv.peers = s.ssv.peers ∧
    (endByFadeOrLimit r s).ssv.bootBus = s.ssv.bootBus ∧
    (endByFadeOrLimit r s).ssv.bootSteps = s.ssv.bootSteps ∧ (endByFadeOrLimit r s).pending = s.pending := by
  refine ⟨?_, ?_, ?_, ?_, ?_, ?_, ?_, ?_, ?_, ?_, ?_, ?_, ?_, ?_, ?_, ?_, ?_, ?_, ?_, ?_, ?_, ?_, ?_, ?_, ?_, ?_, ?_, ?_, ?_⟩ <;>
    (simp [endByFadeOrLimit])
@[simp] theorem closeLine_keeps (l : LineInProgress) :
    (closeLine l s).phase = s.phase ∧ (closeLine l s).clock = s.clock ∧ (closeLine l s).lcu = s.lcu ∧
    (closeLine l s).cst.evictPtr = s.cst.evictPtr ∧ (closeLine l s).cst.ownSequence = s.cst.ownSequence ∧
    (closeLine l s).xen.views = s.xen.views ∧ (closeLine l s).xen.tallyDue = s.xen.tallyDue ∧
    (closeLine l s).xen.tallyPtr = s.xen.tallyPtr ∧ (closeLine l s).xen.claims = s.xen.claims ∧
    (closeLine l s).xen.build = s.xen.build ∧ (closeLine l s).xen.assemblies = s.xen.assemblies ∧
    (closeLine l s).slc.lineState = s.slc.lineState ∧ (closeLine l s).slc.recessiveRun = s.slc.recessiveRun ∧
    (closeLine l s).slc.rx = s.slc.rx ∧ (closeLine l s).slc.role = s.slc.role ∧
    (closeLine l s).slc.damageRun = s.slc.damageRun ∧ (closeLine l s).slc.silent = s.slc.silent ∧
    (closeLine l s).slc.sle = s.slc.sle ∧ (closeLine l s).slc.sltRecessive = s.slc.sltRecessive ∧
    (closeLine l s).ssv.own = s.ssv.own ∧ (closeLine l s).ssv.boot = s.ssv.boot ∧
    (closeLine l s).ssv.status = s.ssv.status ∧ (closeLine l s).ssv.version = s.ssv.version ∧
    (closeLine l s).ssv.minuteDue = s.ssv.minuteDue ∧ (closeLine l s).ssv.rosterDue = s.ssv.rosterDue ∧
    (closeLine l s).ssv.peers = s.ssv.peers ∧ (closeLine l s).ssv.bootBus = s.ssv.bootBus ∧
    (closeLine l s).ssv.bootSteps = s.ssv.bootSteps ∧
    (closeLine l s).pending = s.pending := by
  refine ⟨?_, ?_, ?_, ?_, ?_, ?_, ?_, ?_, ?_, ?_, ?_, ?_, ?_, ?_, ?_, ?_, ?_, ?_, ?_, ?_, ?_, ?_, ?_, ?_, ?_, ?_, ?_, ?_, ?_⟩ <;>
    (unfold closeLine; dsimp only; split <;> split <;> (try split) <;> simp)
@[simp] theorem imageWord_keeps (w : HeardWord) :
    (imageWord w s).phase = s.phase ∧ (imageWord w s).clock = s.clock ∧ (imageWord w s).lcu = s.lcu ∧
    (imageWord w s).cst.evictPtr = s.cst.evictPtr ∧ (imageWord w s).cst.ownSequence = s.cst.ownSequence ∧
    (imageWord w s).xen.views = s.xen.views ∧ (imageWord w s).xen.tallyDue = s.xen.tallyDue ∧
    (imageWord w s).xen.tallyPtr = s.xen.tallyPtr ∧ (imageWord w s).xen.claims = s.xen.claims ∧
    (imageWord w s).xen.build = s.xen.build ∧ (imageWord w s).xen.assemblies = s.xen.assemblies ∧
    (imageWord w s).slc.lineState = s.slc.lineState ∧ (imageWord w s).slc.recessiveRun = s.slc.recessiveRun ∧
    (imageWord w s).slc.rx = s.slc.rx ∧ (imageWord w s).slc.role = s.slc.role ∧
    (imageWord w s).slc.damageRun = s.slc.damageRun ∧ (imageWord w s).slc.silent = s.slc.silent ∧
    (imageWord w s).slc.sle = s.slc.sle ∧ (imageWord w s).slc.sltRecessive = s.slc.sltRecessive ∧
    (imageWord w s).ssv.own = s.ssv.own ∧ (imageWord w s).ssv.boot = s.ssv.boot ∧
    (imageWord w s).ssv.status = s.ssv.status ∧ (imageWord w s).ssv.version = s.ssv.version ∧
    (imageWord w s).ssv.minuteDue = s.ssv.minuteDue ∧ (imageWord w s).ssv.rosterDue = s.ssv.rosterDue ∧
    (imageWord w s).ssv.peers = s.ssv.peers ∧ (imageWord w s).ssv.bootBus = s.ssv.bootBus ∧
    (imageWord w s).ssv.bootSteps = s.ssv.bootSteps ∧
    (imageWord w s).pending = s.pending := by
  refine ⟨?_, ?_, ?_, ?_, ?_, ?_, ?_, ?_, ?_, ?_, ?_, ?_, ?_, ?_, ?_, ?_, ?_, ?_, ?_, ?_, ?_, ?_, ?_, ?_, ?_, ?_, ?_, ?_, ?_⟩ <;>
    (unfold imageWord; split <;> dsimp only <;> (try split) <;> (try split) <;> simp)

/-! ## Image entry and the framer (R17 to R28) -/

@[simp] theorem enterImage_keeps (r : Rate) :
    (enterImage r s).phase = s.phase ∧ (enterImage r s).clock = s.clock ∧ (enterImage r s).lcu = s.lcu ∧
    (enterImage r s).xen.tallyDue = s.xen.tallyDue ∧ (enterImage r s).xen.tallyPtr = s.xen.tallyPtr ∧
    (enterImage r s).slc.lineState = s.slc.lineState ∧ (enterImage r s).slc.recessiveRun = s.slc.recessiveRun ∧
    (enterImage r s).slc.rx = s.slc.rx ∧ (enterImage r s).slc.role = s.slc.role ∧
    (enterImage r s).slc.damageRun = s.slc.damageRun ∧ (enterImage r s).slc.silent = s.slc.silent ∧
    (enterImage r s).slc.sle = s.slc.sle ∧ (enterImage r s).slc.sltRecessive = s.slc.sltRecessive ∧
    (enterImage r s).ssv.own = s.ssv.own ∧ (enterImage r s).ssv.boot = s.ssv.boot ∧
    (enterImage r s).ssv.status = s.ssv.status ∧ (enterImage r s).ssv.version = s.ssv.version ∧
    (enterImage r s).ssv.minuteDue = s.ssv.minuteDue ∧ (enterImage r s).ssv.rosterDue = s.ssv.rosterDue ∧
    (enterImage r s).ssv.peers = s.ssv.peers ∧ (enterImage r s).ssv.bootBus = s.ssv.bootBus ∧
    (enterImage r s).ssv.bootSteps = s.ssv.bootSteps ∧
    (enterImage r s).pending = s.pending := by
  unfold enterImage; dsimp only; split
  · exact ⟨rfl, rfl, rfl, rfl, rfl, rfl, rfl, rfl, rfl, rfl, rfl, rfl, rfl, rfl, rfl, rfl, rfl, rfl, rfl, rfl, rfl, rfl, rfl⟩
  · exact ⟨
      (foldl_preserves (fun s => s.phase) (fun s w => imageWord w s) (by simp) _ _).trans (by simp),
      (foldl_preserves (fun s => s.clock) (fun s w => imageWord w s) (by simp) _ _).trans (by simp),
      (foldl_preserves (fun s => s.lcu) (fun s w => imageWord w s) (by simp) _ _).trans (by simp),
      (foldl_preserves (fun s => s.xen.tallyDue) (fun s w => imageWord w s) (by simp) _ _).trans (by simp),
      (foldl_preserves (fun s => s.xen.tallyPtr) (fun s w => imageWord w s) (by simp) _ _).trans (by simp),
      (foldl_preserves (fun s => s.slc.lineState) (fun s w => imageWord w s) (by simp) _ _).trans (by simp),
      (foldl_preserves (fun s => s.slc.recessiveRun) (fun s w => imageWord w s) (by simp) _ _).trans (by simp),
      (foldl_preserves (fun s => s.slc.rx) (fun s w => imageWord w s) (by simp) _ _).trans (by simp),
      (foldl_preserves (fun s => s.slc.role) (fun s w => imageWord w s) (by simp) _ _).trans (by simp),
      (foldl_preserves (fun s => s.slc.damageRun) (fun s w => imageWord w s) (by simp) _ _).trans (by simp),
      (foldl_preserves (fun s => s.slc.silent) (fun s w => imageWord w s) (by simp) _ _).trans (by simp),
      (foldl_preserves (fun s => s.slc.sle) (fun s w => imageWord w s) (by simp) _ _).trans (by simp),
      (foldl_preserves (fun s => s.slc.sltRecessive) (fun s w => imageWord w s) (by simp) _ _).trans (by simp),
      (foldl_preserves (fun s => s.ssv.own) (fun s w => imageWord w s) (by simp) _ _).trans (by simp),
      (foldl_preserves (fun s => s.ssv.boot) (fun s w => imageWord w s) (by simp) _ _).trans (by simp),
      (foldl_preserves (fun s => s.ssv.status) (fun s w => imageWord w s) (by simp) _ _).trans (by simp),
      (foldl_preserves (fun s => s.ssv.version) (fun s w => imageWord w s) (by simp) _ _).trans (by simp),
      (foldl_preserves (fun s => s.ssv.minuteDue) (fun s w => imageWord w s) (by simp) _ _).trans (by simp),
      (foldl_preserves (fun s => s.ssv.rosterDue) (fun s w => imageWord w s) (by simp) _ _).trans (by simp),
      (foldl_preserves (fun s => s.ssv.peers) (fun s w => imageWord w s) (by simp) _ _).trans (by simp),
      (foldl_preserves (fun s => s.ssv.bootBus) (fun s w => imageWord w s) (by simp) _ _).trans (by simp),
      (foldl_preserves (fun s => s.ssv.bootSteps) (fun s w => imageWord w s) (by simp) _ _).trans (by simp),
      (foldl_preserves (fun s => s.pending) (fun s w => imageWord w s) (by simp) _ _).trans (by simp)⟩
@[simp] theorem takeMiss_keeps (r : Rate) :
    (takeMiss r s).phase = s.phase ∧ (takeMiss r s).clock = s.clock ∧ (takeMiss r s).lcu = s.lcu ∧
    (takeMiss r s).xen.tallyDue = s.xen.tallyDue ∧ (takeMiss r s).xen.tallyPtr = s.xen.tallyPtr ∧
    (takeMiss r s).slc.lineState = s.slc.lineState ∧ (takeMiss r s).slc.recessiveRun = s.slc.recessiveRun ∧
    (takeMiss r s).slc.rx = s.slc.rx ∧ (takeMiss r s).slc.role = s.slc.role ∧
    (takeMiss r s).slc.damageRun = s.slc.damageRun ∧ (takeMiss r s).slc.silent = s.slc.silent ∧
    (takeMiss r s).slc.sle = s.slc.sle ∧ (takeMiss r s).slc.sltRecessive = s.slc.sltRecessive ∧
    (takeMiss r s).ssv.own = s.ssv.own ∧ (takeMiss r s).ssv.boot = s.ssv.boot ∧
    (takeMiss r s).ssv.status = s.ssv.status ∧ (takeMiss r s).ssv.version = s.ssv.version ∧
    (takeMiss r s).ssv.minuteDue = s.ssv.minuteDue ∧ (takeMiss r s).ssv.rosterDue = s.ssv.rosterDue ∧
    (takeMiss r s).ssv.peers = s.ssv.peers ∧ (takeMiss r s).ssv.bootBus = s.ssv.bootBus ∧
    (takeMiss r s).ssv.bootSteps = s.ssv.bootSteps ∧
    (takeMiss r s).pending = s.pending := by
  refine ⟨?_, ?_, ?_, ?_, ?_, ?_, ?_, ?_, ?_, ?_, ?_, ?_, ?_, ?_, ?_, ?_, ?_, ?_, ?_, ?_, ?_, ?_, ?_⟩ <;>
    (unfold takeMiss; split <;> (try split) <;> simp)
@[simp] theorem decideMiss_keeps (w : HeardWord) :
    (decideMiss w s).phase = s.phase ∧ (decideMiss w s).clock = s.clock ∧ (decideMiss w s).lcu = s.lcu ∧
    (decideMiss w s).xen.tallyDue = s.xen.tallyDue ∧ (decideMiss w s).xen.tallyPtr = s.xen.tallyPtr ∧
    (decideMiss w s).slc.lineState = s.slc.lineState ∧ (decideMiss w s).slc.recessiveRun = s.slc.recessiveRun ∧
    (decideMiss w s).slc.rx = s.slc.rx ∧ (decideMiss w s).slc.role = s.slc.role ∧
    (decideMiss w s).slc.damageRun = s.slc.damageRun ∧ (decideMiss w s).slc.silent = s.slc.silent ∧
    (decideMiss w s).slc.sle = s.slc.sle ∧ (decideMiss w s).slc.sltRecessive = s.slc.sltRecessive ∧
    (decideMiss w s).ssv.own = s.ssv.own ∧ (decideMiss w s).ssv.boot = s.ssv.boot ∧
    (decideMiss w s).ssv.status = s.ssv.status ∧ (decideMiss w s).ssv.version = s.ssv.version ∧
    (decideMiss w s).ssv.minuteDue = s.ssv.minuteDue ∧ (decideMiss w s).ssv.rosterDue = s.ssv.rosterDue ∧
    (decideMiss w s).ssv.peers = s.ssv.peers ∧ (decideMiss w s).ssv.bootBus = s.ssv.bootBus ∧
    (decideMiss w s).ssv.bootSteps = s.ssv.bootSteps ∧
    (decideMiss w s).pending = s.pending := by
  refine ⟨?_, ?_, ?_, ?_, ?_, ?_, ?_, ?_, ?_, ?_, ?_, ?_, ?_, ?_, ?_, ?_, ?_, ?_, ?_, ?_, ?_, ?_, ?_⟩ <;>
    (unfold decideMiss; split <;> (try split) <;> simp)
@[simp] theorem framerWord_keeps (w : HeardWord) :
    (framerWord w s).phase = s.phase ∧ (framerWord w s).clock = s.clock ∧ (framerWord w s).lcu = s.lcu ∧
    (framerWord w s).xen.tallyDue = s.xen.tallyDue ∧ (framerWord w s).xen.tallyPtr = s.xen.tallyPtr ∧
    (framerWord w s).slc.lineState = s.slc.lineState ∧ (framerWord w s).slc.recessiveRun = s.slc.recessiveRun ∧
    (framerWord w s).slc.rx = s.slc.rx ∧ (framerWord w s).slc.role = s.slc.role ∧
    (framerWord w s).slc.damageRun = s.slc.damageRun ∧ (framerWord w s).slc.silent = s.slc.silent ∧
    (framerWord w s).slc.sle = s.slc.sle ∧ (framerWord w s).slc.sltRecessive = s.slc.sltRecessive ∧
    (framerWord w s).ssv.own = s.ssv.own ∧ (framerWord w s).ssv.boot = s.ssv.boot ∧
    (framerWord w s).ssv.status = s.ssv.status ∧ (framerWord w s).ssv.version = s.ssv.version ∧
    (framerWord w s).ssv.minuteDue = s.ssv.minuteDue ∧ (framerWord w s).ssv.rosterDue = s.ssv.rosterDue ∧
    (framerWord w s).ssv.peers = s.ssv.peers ∧ (framerWord w s).ssv.bootBus = s.ssv.bootBus ∧
    (framerWord w s).ssv.bootSteps = s.ssv.bootSteps ∧
    (framerWord w s).pending = s.pending := by
  refine ⟨?_, ?_, ?_, ?_, ?_, ?_, ?_, ?_, ?_, ?_, ?_, ?_, ?_, ?_, ?_, ?_, ?_, ?_, ?_, ?_, ?_, ?_, ?_⟩ <;>
    (unfold framerWord; dsimp only; split <;> simp)
@[simp] theorem imageFade_keeps (b : Bool) :
    (imageFade b s).phase = s.phase ∧ (imageFade b s).clock = s.clock ∧ (imageFade b s).lcu = s.lcu ∧
    (imageFade b s).cst.evictPtr = s.cst.evictPtr ∧ (imageFade b s).cst.ownSequence = s.cst.ownSequence ∧
    (imageFade b s).xen.views = s.xen.views ∧ (imageFade b s).xen.tallyDue = s.xen.tallyDue ∧
    (imageFade b s).xen.tallyPtr = s.xen.tallyPtr ∧ (imageFade b s).xen.claims = s.xen.claims ∧
    (imageFade b s).xen.build = s.xen.build ∧ (imageFade b s).xen.assemblies = s.xen.assemblies ∧
    (imageFade b s).slc.lineState = s.slc.lineState ∧ (imageFade b s).slc.recessiveRun = s.slc.recessiveRun ∧
    (imageFade b s).slc.rx = s.slc.rx ∧ (imageFade b s).slc.role = s.slc.role ∧
    (imageFade b s).slc.damageRun = s.slc.damageRun ∧ (imageFade b s).slc.silent = s.slc.silent ∧
    (imageFade b s).slc.sle = s.slc.sle ∧ (imageFade b s).slc.sltRecessive = s.slc.sltRecessive ∧
    (imageFade b s).ssv.own = s.ssv.own ∧ (imageFade b s).ssv.boot = s.ssv.boot ∧
    (imageFade b s).ssv.status = s.ssv.status ∧ (imageFade b s).ssv.version = s.ssv.version ∧
    (imageFade b s).ssv.minuteDue = s.ssv.minuteDue ∧ (imageFade b s).ssv.rosterDue = s.ssv.rosterDue ∧
    (imageFade b s).ssv.peers = s.ssv.peers ∧ (imageFade b s).ssv.bootBus = s.ssv.bootBus ∧
    (imageFade b s).ssv.bootSteps = s.ssv.bootSteps ∧
    (imageFade b s).pending = s.pending := by
  refine ⟨?_, ?_, ?_, ?_, ?_, ?_, ?_, ?_, ?_, ?_, ?_, ?_, ?_, ?_, ?_, ?_, ?_, ?_, ?_, ?_, ?_, ?_, ?_, ?_, ?_, ?_, ?_, ?_, ?_⟩ <;>
    (unfold imageFade; split <;> (try dsimp only) <;> (try split) <;> (try split) <;> simp)
@[simp] theorem imageReport_keeps (r : WindowReport) :
    (imageReport r s).phase = s.phase ∧ (imageReport r s).clock = s.clock ∧ (imageReport r s).lcu = s.lcu ∧
    (imageReport r s).cst.evictPtr = s.cst.evictPtr ∧ (imageReport r s).cst.ownSequence = s.cst.ownSequence ∧
    (imageReport r s).xen.views = s.xen.views ∧ (imageReport r s).xen.tallyDue = s.xen.tallyDue ∧
    (imageReport r s).xen.tallyPtr = s.xen.tallyPtr ∧ (imageReport r s).xen.claims = s.xen.claims ∧
    (imageReport r s).xen.build = s.xen.build ∧ (imageReport r s).xen.assemblies = s.xen.assemblies ∧
    (imageReport r s).slc.lineState = s.slc.lineState ∧ (imageReport r s).slc.recessiveRun = s.slc.recessiveRun ∧
    (imageReport r s).slc.rx = s.slc.rx ∧ (imageReport r s).slc.role = s.slc.role ∧
    (imageReport r s).slc.damageRun = s.slc.damageRun ∧ (imageReport r s).slc.silent = s.slc.silent ∧
    (imageReport r s).slc.sle = s.slc.sle ∧ (imageReport r s).slc.sltRecessive = s.slc.sltRecessive ∧
    (imageReport r s).ssv.own = s.ssv.own ∧ (imageReport r s).ssv.boot = s.ssv.boot ∧
    (imageReport r s).ssv.status = s.ssv.status ∧ (imageReport r s).ssv.version = s.ssv.version ∧
    (imageReport r s).ssv.minuteDue = s.ssv.minuteDue ∧ (imageReport r s).ssv.rosterDue = s.ssv.rosterDue ∧
    (imageReport r s).ssv.peers = s.ssv.peers ∧ (imageReport r s).ssv.bootBus = s.ssv.bootBus ∧
    (imageReport r s).ssv.bootSteps = s.ssv.bootSteps ∧
    (imageReport r s).pending = s.pending := by
  refine ⟨?_, ?_, ?_, ?_, ?_, ?_, ?_, ?_, ?_, ?_, ?_, ?_, ?_, ?_, ?_, ?_, ?_, ?_, ?_, ?_, ?_, ?_, ?_, ?_, ?_, ?_, ?_, ?_, ?_⟩ <;>
    (unfold imageReport; split <;> (try split) <;> simp)
@[simp] theorem framerReport_keeps (r : WindowReport) :
    (framerReport r s).phase = s.phase ∧ (framerReport r s).clock = s.clock ∧ (framerReport r s).lcu = s.lcu ∧
    (framerReport r s).cst.evictPtr = s.cst.evictPtr ∧ (framerReport r s).cst.ownSequence = s.cst.ownSequence ∧
    (framerReport r s).xen.views = s.xen.views ∧ (framerReport r s).xen.tallyDue = s.xen.tallyDue ∧
    (framerReport r s).xen.tallyPtr = s.xen.tallyPtr ∧ (framerReport r s).xen.claims = s.xen.claims ∧
    (framerReport r s).xen.build = s.xen.build ∧ (framerReport r s).xen.assemblies = s.xen.assemblies ∧
    (framerReport r s).slc.lineState = s.slc.lineState ∧ (framerReport r s).slc.recessiveRun = s.slc.recessiveRun ∧
    (framerReport r s).slc.rx = s.slc.rx ∧ (framerReport r s).slc.role = s.slc.role ∧
    (framerReport r s).slc.damageRun = s.slc.damageRun ∧ (framerReport r s).slc.silent = s.slc.silent ∧
    (framerReport r s).slc.sle = s.slc.sle ∧ (framerReport r s).slc.sltRecessive = s.slc.sltRecessive ∧
    (framerReport r s).ssv.own = s.ssv.own ∧ (framerReport r s).ssv.boot = s.ssv.boot ∧
    (framerReport r s).ssv.status = s.ssv.status ∧ (framerReport r s).ssv.version = s.ssv.version ∧
    (framerReport r s).ssv.minuteDue = s.ssv.minuteDue ∧ (framerReport r s).ssv.rosterDue = s.ssv.rosterDue ∧
    (framerReport r s).ssv.peers = s.ssv.peers ∧ (framerReport r s).ssv.bootBus = s.ssv.bootBus ∧
    (framerReport r s).ssv.bootSteps = s.ssv.bootSteps ∧
    (framerReport r s).pending = s.pending := by
  refine ⟨?_, ?_, ?_, ?_, ?_, ?_, ?_, ?_, ?_, ?_, ?_, ?_, ?_, ?_, ?_, ?_, ?_, ?_, ?_, ?_, ?_, ?_, ?_, ?_, ?_, ?_, ?_, ?_, ?_⟩ <;>
    (unfold framerReport; split <;> (try split) <;> (try split) <;> simp)

/-! ## Windows and words (R1 to R14) -/

@[simp] theorem gainDownPulse_keeps :
    (gainDownPulse s).phase = s.phase ∧ (gainDownPulse s).clock = s.clock ∧ (gainDownPulse s).lfr = s.lfr ∧
    (gainDownPulse s).cst = s.cst ∧ (gainDownPulse s).xen = s.xen ∧ (gainDownPulse s).slc = s.slc ∧
    (gainDownPulse s).ssv = s.ssv ∧ (gainDownPulse s).pending = s.pending := by
  refine ⟨?_, ?_, ?_, ?_, ?_, ?_, ?_, ?_⟩ <;>
    (rfl)
@[simp] theorem reportClipped_keeps (a : WindowAcc) :
    (reportClipped a s).phase = s.phase ∧ (reportClipped a s).clock = s.clock ∧ (reportClipped a s).lcu = s.lcu ∧
    (reportClipped a s).lfr = s.lfr ∧ (reportClipped a s).cst = s.cst ∧ (reportClipped a s).xen = s.xen ∧
    (reportClipped a s).slc.lineState = s.slc.lineState ∧ (reportClipped a s).slc.recessiveRun = s.slc.recessiveRun ∧
    (reportClipped a s).slc.rx = s.slc.rx ∧ (reportClipped a s).slc.role = s.slc.role ∧
    (reportClipped a s).slc.damageRun = s.slc.damageRun ∧ (reportClipped a s).slc.silent = s.slc.silent ∧
    (reportClipped a s).slc.sle = s.slc.sle ∧ (reportClipped a s).slc.sltRecessive = s.slc.sltRecessive ∧
    (reportClipped a s).ssv.own = s.ssv.own ∧ (reportClipped a s).ssv.boot = s.ssv.boot ∧
    (reportClipped a s).ssv.status = s.ssv.status ∧ (reportClipped a s).ssv.version = s.ssv.version ∧
    (reportClipped a s).ssv.minuteDue = s.ssv.minuteDue ∧ (reportClipped a s).ssv.rosterDue = s.ssv.rosterDue ∧
    (reportClipped a s).ssv.peers = s.ssv.peers ∧ (reportClipped a s).ssv.bootBus = s.ssv.bootBus ∧
    (reportClipped a s).ssv.bootSteps = s.ssv.bootSteps ∧
    (reportClipped a s).pending = s.pending := by
  refine ⟨?_, ?_, ?_, ?_, ?_, ?_, ?_, ?_, ?_, ?_, ?_, ?_, ?_, ?_, ?_, ?_, ?_, ?_, ?_, ?_, ?_, ?_, ?_, ?_⟩ <;>
    (simp [reportClipped])
@[simp] theorem clipWindow_keeps (a : WindowAcc) :
    (clipWindow a s).phase = s.phase ∧ (clipWindow a s).clock = s.clock ∧ (clipWindow a s).lfr = s.lfr ∧
    (clipWindow a s).cst = s.cst ∧ (clipWindow a s).xen = s.xen ∧ (clipWindow a s).slc.lineState = s.slc.lineState ∧
    (clipWindow a s).slc.recessiveRun = s.slc.recessiveRun ∧ (clipWindow a s).slc.rx = s.slc.rx ∧
    (clipWindow a s).slc.role = s.slc.role ∧ (clipWindow a s).slc.damageRun = s.slc.damageRun ∧
    (clipWindow a s).slc.silent = s.slc.silent ∧ (clipWindow a s).slc.sle = s.slc.sle ∧
    (clipWindow a s).slc.sltRecessive = s.slc.sltRecessive ∧ (clipWindow a s).ssv.own = s.ssv.own ∧
    (clipWindow a s).ssv.boot = s.ssv.boot ∧ (clipWindow a s).ssv.status = s.ssv.status ∧
    (clipWindow a s).ssv.version = s.ssv.version ∧ (clipWindow a s).ssv.minuteDue = s.ssv.minuteDue ∧
    (clipWindow a s).ssv.rosterDue = s.ssv.rosterDue ∧ (clipWindow a s).ssv.peers = s.ssv.peers ∧
    (clipWindow a s).ssv.bootBus = s.ssv.bootBus ∧
    (clipWindow a s).ssv.bootSteps = s.ssv.bootSteps ∧ (clipWindow a s).pending = s.pending := by
  refine ⟨?_, ?_, ?_, ?_, ?_, ?_, ?_, ?_, ?_, ?_, ?_, ?_, ?_, ?_, ?_, ?_, ?_, ?_, ?_, ?_, ?_, ?_, ?_⟩ <;>
    (unfold clipWindow; split <;> (try split) <;> (try split) <;> simp)
@[simp] theorem closeTuning_keeps (a : WindowAcc) :
    (closeTuning a s).phase = s.phase ∧ (closeTuning a s).clock = s.clock ∧ (closeTuning a s).lfr = s.lfr ∧
    (closeTuning a s).cst = s.cst ∧ (closeTuning a s).xen = s.xen ∧
    (closeTuning a s).slc.lineState = s.slc.lineState ∧ (closeTuning a s).slc.recessiveRun = s.slc.recessiveRun ∧
    (closeTuning a s).slc.rx = s.slc.rx ∧ (closeTuning a s).slc.role = s.slc.role ∧
    (closeTuning a s).slc.damageRun = s.slc.damageRun ∧ (closeTuning a s).slc.silent = s.slc.silent ∧
    (closeTuning a s).slc.sle = s.slc.sle ∧ (closeTuning a s).slc.sltRecessive = s.slc.sltRecessive ∧
    (closeTuning a s).ssv.own = s.ssv.own ∧ (closeTuning a s).ssv.boot = s.ssv.boot ∧
    (closeTuning a s).ssv.status = s.ssv.status ∧ (closeTuning a s).ssv.version = s.ssv.version ∧
    (closeTuning a s).ssv.minuteDue = s.ssv.minuteDue ∧ (closeTuning a s).ssv.rosterDue = s.ssv.rosterDue ∧
    (closeTuning a s).ssv.peers = s.ssv.peers ∧ (closeTuning a s).ssv.bootBus = s.ssv.bootBus ∧
    (closeTuning a s).ssv.bootSteps = s.ssv.bootSteps ∧
    (closeTuning a s).pending = s.pending := by
  refine ⟨?_, ?_, ?_, ?_, ?_, ?_, ?_, ?_, ?_, ?_, ?_, ?_, ?_, ?_, ?_, ?_, ?_, ?_, ?_, ?_, ?_, ?_, ?_⟩ <;>
    (unfold closeTuning; dsimp only; split <;> simp)
@[simp] theorem closeWindow_keeps (p : Position) :
    (closeWindow p s).phase = s.phase ∧ (closeWindow p s).clock = s.clock ∧
    (closeWindow p s).cst.evictPtr = s.cst.evictPtr ∧ (closeWindow p s).cst.ownSequence = s.cst.ownSequence ∧
    (closeWindow p s).xen.views = s.xen.views ∧ (closeWindow p s).xen.tallyDue = s.xen.tallyDue ∧
    (closeWindow p s).xen.tallyPtr = s.xen.tallyPtr ∧ (closeWindow p s).xen.claims = s.xen.claims ∧
    (closeWindow p s).xen.build = s.xen.build ∧ (closeWindow p s).xen.assemblies = s.xen.assemblies ∧
    (closeWindow p s).slc.lineState = s.slc.lineState ∧ (closeWindow p s).slc.recessiveRun = s.slc.recessiveRun ∧
    (closeWindow p s).slc.rx = s.slc.rx ∧ (closeWindow p s).slc.role = s.slc.role ∧
    (closeWindow p s).slc.damageRun = s.slc.damageRun ∧ (closeWindow p s).slc.silent = s.slc.silent ∧
    (closeWindow p s).slc.sle = s.slc.sle ∧ (closeWindow p s).slc.sltRecessive = s.slc.sltRecessive ∧
    (closeWindow p s).ssv.own = s.ssv.own ∧ (closeWindow p s).ssv.boot = s.ssv.boot ∧
    (closeWindow p s).ssv.status = s.ssv.status ∧ (closeWindow p s).ssv.version = s.ssv.version ∧
    (closeWindow p s).ssv.minuteDue = s.ssv.minuteDue ∧ (closeWindow p s).ssv.rosterDue = s.ssv.rosterDue ∧
    (closeWindow p s).ssv.peers = s.ssv.peers ∧ (closeWindow p s).ssv.bootBus = s.ssv.bootBus ∧
    (closeWindow p s).ssv.bootSteps = s.ssv.bootSteps ∧
    (closeWindow p s).pending = s.pending := by
  refine ⟨?_, ?_, ?_, ?_, ?_, ?_, ?_, ?_, ?_, ?_, ?_, ?_, ?_, ?_, ?_, ?_, ?_, ?_, ?_, ?_, ?_, ?_, ?_, ?_, ?_, ?_, ?_, ?_⟩ <;>
    (unfold closeWindow; dsimp only; split <;> simp)
@[simp] theorem takeWord_keeps (b : BitVec 16) :
    (takeWord b s).phase = s.phase ∧ (takeWord b s).clock = s.clock ∧ (takeWord b s).xen.tallyDue = s.xen.tallyDue ∧
    (takeWord b s).xen.tallyPtr = s.xen.tallyPtr ∧ (takeWord b s).slc.lineState = s.slc.lineState ∧
    (takeWord b s).slc.recessiveRun = s.slc.recessiveRun ∧ (takeWord b s).slc.rx = s.slc.rx ∧
    (takeWord b s).slc.role = s.slc.role ∧ (takeWord b s).slc.damageRun = s.slc.damageRun ∧
    (takeWord b s).slc.silent = s.slc.silent ∧ (takeWord b s).slc.sle = s.slc.sle ∧
    (takeWord b s).slc.sltRecessive = s.slc.sltRecessive ∧ (takeWord b s).ssv.own = s.ssv.own ∧
    (takeWord b s).ssv.boot = s.ssv.boot ∧ (takeWord b s).ssv.status = s.ssv.status ∧
    (takeWord b s).ssv.version = s.ssv.version ∧ (takeWord b s).ssv.minuteDue = s.ssv.minuteDue ∧
    (takeWord b s).ssv.rosterDue = s.ssv.rosterDue ∧ (takeWord b s).ssv.peers = s.ssv.peers ∧
    (takeWord b s).ssv.bootBus = s.ssv.bootBus ∧
    (takeWord b s).ssv.bootSteps = s.ssv.bootSteps ∧ (takeWord b s).pending = s.pending := by
  refine ⟨?_, ?_, ?_, ?_, ?_, ?_, ?_, ?_, ?_, ?_, ?_, ?_, ?_, ?_, ?_, ?_, ?_, ?_, ?_, ?_, ?_, ?_⟩ <;>
    (unfold takeWord; dsimp only; split <;> simp)

end Sys2Proof.Machine
end

