-- ==== Sys2Proof/Laws/Exchange.lean ====
section
/-! SUPPORT. What the exchange, the station services and reception leave alone, field by field. -/

set_option linter.unnecessarySeqFocus false
set_option linter.unusedSimpArgs false
set_option linter.unusedTactic false
set_option linter.unreachableTactic false

namespace Sys2Proof.Machine

variable (s : State)

/-! ## Heard OPEN, CLOSE and DROP (R76, R88 to R94) -/

@[simp] theorem countMalformed_keeps :
    (countMalformed s).phase = s.phase ∧ (countMalformed s).clock = s.clock ∧ (countMalformed s).lcu = s.lcu ∧
    (countMalformed s).lfr = s.lfr ∧ (countMalformed s).cst = s.cst ∧ (countMalformed s).xen = s.xen ∧
    (countMalformed s).slc = s.slc ∧ (countMalformed s).ssv.own = s.ssv.own ∧
    (countMalformed s).ssv.boot = s.ssv.boot ∧ (countMalformed s).ssv.status = s.ssv.status ∧
    (countMalformed s).ssv.version = s.ssv.version ∧ (countMalformed s).ssv.minuteDue = s.ssv.minuteDue ∧
    (countMalformed s).ssv.rosterDue = s.ssv.rosterDue ∧ (countMalformed s).ssv.peers = s.ssv.peers ∧
    (countMalformed s).ssv.bootBus = s.ssv.bootBus ∧
    (countMalformed s).ssv.bootSteps = s.ssv.bootSteps ∧ (countMalformed s).pending = s.pending := by
  refine ⟨?_, ?_, ?_, ?_, ?_, ?_, ?_, ?_, ?_, ?_, ?_, ?_, ?_, ?_, ?_, ?_, ?_⟩ <;>
    (rfl)
@[simp] theorem replaceKeyEverywhere_keeps (a b : Key) :
    (replaceKeyEverywhere a b s).phase = s.phase ∧ (replaceKeyEverywhere a b s).clock = s.clock ∧
    (replaceKeyEverywhere a b s).lcu = s.lcu ∧ (replaceKeyEverywhere a b s).lfr = s.lfr ∧
    (replaceKeyEverywhere a b s).cst = s.cst ∧ (replaceKeyEverywhere a b s).xen.views = s.xen.views ∧
    (replaceKeyEverywhere a b s).xen.openReq = s.xen.openReq ∧
    (replaceKeyEverywhere a b s).xen.tallyDue = s.xen.tallyDue ∧
    (replaceKeyEverywhere a b s).xen.tallyPtr = s.xen.tallyPtr ∧
    (replaceKeyEverywhere a b s).xen.assemblies = s.xen.assemblies ∧
    (replaceKeyEverywhere a b s).slc.lineState = s.slc.lineState ∧
    (replaceKeyEverywhere a b s).slc.recessiveRun = s.slc.recessiveRun ∧
    (replaceKeyEverywhere a b s).slc.rx = s.slc.rx ∧ (replaceKeyEverywhere a b s).slc.role = s.slc.role ∧
    (replaceKeyEverywhere a b s).slc.damageRun = s.slc.damageRun ∧
    (replaceKeyEverywhere a b s).slc.silent = s.slc.silent ∧ (replaceKeyEverywhere a b s).slc.sle = s.slc.sle ∧
    (replaceKeyEverywhere a b s).slc.sltRecessive = s.slc.sltRecessive ∧ (replaceKeyEverywhere a b s).ssv = s.ssv ∧
    (replaceKeyEverywhere a b s).pending = s.pending := by
  refine ⟨?_, ?_, ?_, ?_, ?_, ?_, ?_, ?_, ?_, ?_, ?_, ?_, ?_, ?_, ?_, ?_, ?_, ?_, ?_, ?_⟩ <;>
    (rfl)
@[simp] theorem withdrawOpen_keeps (i : SlotNo) (o p : Int) (k : Key) :
    (withdrawOpen i o p k s).phase = s.phase ∧ (withdrawOpen i o p k s).clock = s.clock ∧
    (withdrawOpen i o p k s).lcu = s.lcu ∧ (withdrawOpen i o p k s).lfr = s.lfr ∧
    (withdrawOpen i o p k s).cst.pages = s.cst.pages ∧ (withdrawOpen i o p k s).cst.free = s.cst.free ∧
    (withdrawOpen i o p k s).cst.poolReported = s.cst.poolReported ∧
    (withdrawOpen i o p k s).cst.evictPtr = s.cst.evictPtr ∧
    (withdrawOpen i o p k s).cst.ownSequence = s.cst.ownSequence ∧ (withdrawOpen i o p k s).xen.views = s.xen.views ∧
    (withdrawOpen i o p k s).xen.tallyDue = s.xen.tallyDue ∧ (withdrawOpen i o p k s).xen.tallyPtr = s.xen.tallyPtr ∧
    (withdrawOpen i o p k s).xen.assemblies = s.xen.assemblies ∧
    (withdrawOpen i o p k s).slc.lineState = s.slc.lineState ∧
    (withdrawOpen i o p k s).slc.recessiveRun = s.slc.recessiveRun ∧ (withdrawOpen i o p k s).slc.rx = s.slc.rx ∧
    (withdrawOpen i o p k s).slc.role = s.slc.role ∧ (withdrawOpen i o p k s).slc.damageRun = s.slc.damageRun ∧
    (withdrawOpen i o p k s).slc.silent = s.slc.silent ∧ (withdrawOpen i o p k s).slc.sle = s.slc.sle ∧
    (withdrawOpen i o p k s).slc.sltRecessive = s.slc.sltRecessive ∧ (withdrawOpen i o p k s).ssv.own = s.ssv.own ∧
    (withdrawOpen i o p k s).ssv.boot = s.ssv.boot ∧ (withdrawOpen i o p k s).ssv.status = s.ssv.status ∧
    (withdrawOpen i o p k s).ssv.version = s.ssv.version ∧ (withdrawOpen i o p k s).ssv.minuteDue = s.ssv.minuteDue ∧
    (withdrawOpen i o p k s).ssv.rosterDue = s.ssv.rosterDue ∧ (withdrawOpen i o p k s).ssv.peers = s.ssv.peers ∧
    (withdrawOpen i o p k s).ssv.bootBus = s.ssv.bootBus ∧
    (withdrawOpen i o p k s).ssv.bootSteps = s.ssv.bootSteps ∧ (withdrawOpen i o p k s).pending = s.pending := by
  refine ⟨?_, ?_, ?_, ?_, ?_, ?_, ?_, ?_, ?_, ?_, ?_, ?_, ?_, ?_, ?_, ?_, ?_, ?_, ?_, ?_, ?_, ?_, ?_, ?_, ?_, ?_, ?_, ?_, ?_, ?_, ?_⟩ <;>
    (unfold withdrawOpen; (repeat' first | split | dsimp only) <;> simp)
@[simp] theorem recordAlias_keeps (i : SlotNo) (k : Key) :
    (recordAlias i k s).phase = s.phase ∧ (recordAlias i k s).clock = s.clock ∧ (recordAlias i k s).lcu = s.lcu ∧
    (recordAlias i k s).lfr = s.lfr ∧ (recordAlias i k s).cst.pages = s.cst.pages ∧
    (recordAlias i k s).cst.free = s.cst.free ∧ (recordAlias i k s).cst.poolReported = s.cst.poolReported ∧
    (recordAlias i k s).cst.evictPtr = s.cst.evictPtr ∧ (recordAlias i k s).cst.ownSequence = s.cst.ownSequence ∧
    (recordAlias i k s).xen.views = s.xen.views ∧ (recordAlias i k s).xen.tallyDue = s.xen.tallyDue ∧
    (recordAlias i k s).xen.tallyPtr = s.xen.tallyPtr ∧ (recordAlias i k s).xen.claims = s.xen.claims ∧
    (recordAlias i k s).xen.build = s.xen.build ∧ (recordAlias i k s).xen.assemblies = s.xen.assemblies ∧
    (recordAlias i k s).slc.lineState = s.slc.lineState ∧ (recordAlias i k s).slc.recessiveRun = s.slc.recessiveRun ∧
    (recordAlias i k s).slc.rx = s.slc.rx ∧ (recordAlias i k s).slc.role = s.slc.role ∧
    (recordAlias i k s).slc.damageRun = s.slc.damageRun ∧ (recordAlias i k s).slc.silent = s.slc.silent ∧
    (recordAlias i k s).slc.sle = s.slc.sle ∧ (recordAlias i k s).slc.sltRecessive = s.slc.sltRecessive ∧
    (recordAlias i k s).ssv.own = s.ssv.own ∧ (recordAlias i k s).ssv.boot = s.ssv.boot ∧
    (recordAlias i k s).ssv.status = s.ssv.status ∧ (recordAlias i k s).ssv.version = s.ssv.version ∧
    (recordAlias i k s).ssv.minuteDue = s.ssv.minuteDue ∧ (recordAlias i k s).ssv.rosterDue = s.ssv.rosterDue ∧
    (recordAlias i k s).ssv.peers = s.ssv.peers ∧ (recordAlias i k s).ssv.bootBus = s.ssv.bootBus ∧
    (recordAlias i k s).ssv.bootSteps = s.ssv.bootSteps ∧
    (recordAlias i k s).pending = s.pending := by
  refine ⟨?_, ?_, ?_, ?_, ?_, ?_, ?_, ?_, ?_, ?_, ?_, ?_, ?_, ?_, ?_, ?_, ?_, ?_, ?_, ?_, ?_, ?_, ?_, ?_, ?_, ?_, ?_, ?_, ?_, ?_, ?_, ?_, ?_⟩ <;>
    (unfold recordAlias; (repeat' first | split | dsimp only) <;> simp)
@[simp] theorem adoptChart_keeps (k : Key) (tag : Nat) (r : Rate) (p : Int) :
    (adoptChart k tag r p s).phase = s.phase ∧ (adoptChart k tag r p s).clock = s.clock ∧
    (adoptChart k tag r p s).lcu = s.lcu ∧ (adoptChart k tag r p s).lfr = s.lfr ∧
    (adoptChart k tag r p s).cst.pages = s.cst.pages ∧ (adoptChart k tag r p s).cst.ownSequence = s.cst.ownSequence ∧
    (adoptChart k tag r p s).xen.tallyDue = s.xen.tallyDue ∧ (adoptChart k tag r p s).xen.tallyPtr = s.xen.tallyPtr ∧
    (adoptChart k tag r p s).slc.lineState = s.slc.lineState ∧
    (adoptChart k tag r p s).slc.recessiveRun = s.slc.recessiveRun ∧ (adoptChart k tag r p s).slc.rx = s.slc.rx ∧
    (adoptChart k tag r p s).slc.role = s.slc.role ∧ (adoptChart k tag r p s).slc.damageRun = s.slc.damageRun ∧
    (adoptChart k tag r p s).slc.silent = s.slc.silent ∧ (adoptChart k tag r p s).slc.sle = s.slc.sle ∧
    (adoptChart k tag r p s).slc.sltRecessive = s.slc.sltRecessive ∧ (adoptChart k tag r p s).ssv.own = s.ssv.own ∧
    (adoptChart k tag r p s).ssv.boot = s.ssv.boot ∧ (adoptChart k tag r p s).ssv.status = s.ssv.status ∧
    (adoptChart k tag r p s).ssv.version = s.ssv.version ∧ (adoptChart k tag r p s).ssv.minuteDue = s.ssv.minuteDue ∧
    (adoptChart k tag r p s).ssv.rosterDue = s.ssv.rosterDue ∧ (adoptChart k tag r p s).ssv.peers = s.ssv.peers ∧
    (adoptChart k tag r p s).ssv.bootBus = s.ssv.bootBus ∧
    (adoptChart k tag r p s).ssv.bootSteps = s.ssv.bootSteps ∧ (adoptChart k tag r p s).pending = s.pending := by
  refine ⟨?_, ?_, ?_, ?_, ?_, ?_, ?_, ?_, ?_, ?_, ?_, ?_, ?_, ?_, ?_, ?_, ?_, ?_, ?_, ?_, ?_, ?_, ?_, ?_, ?_, ?_⟩ <;>
    (unfold adoptChart; dsimp only; (repeat' first | split | dsimp only) <;> simp)
@[simp] theorem takeOpen_keeps (k : Key) (tag : Nat) (r : Rate) (p : Int) :
    (takeOpen k tag r p s).phase = s.phase ∧ (takeOpen k tag r p s).clock = s.clock ∧
    (takeOpen k tag r p s).lcu = s.lcu ∧ (takeOpen k tag r p s).lfr = s.lfr ∧
    (takeOpen k tag r p s).cst.pages = s.cst.pages ∧ (takeOpen k tag r p s).cst.ownSequence = s.cst.ownSequence ∧
    (takeOpen k tag r p s).xen.tallyDue = s.xen.tallyDue ∧ (takeOpen k tag r p s).xen.tallyPtr = s.xen.tallyPtr ∧
    (takeOpen k tag r p s).slc.lineState = s.slc.lineState ∧
    (takeOpen k tag r p s).slc.recessiveRun = s.slc.recessiveRun ∧ (takeOpen k tag r p s).slc.rx = s.slc.rx ∧
    (takeOpen k tag r p s).slc.role = s.slc.role ∧ (takeOpen k tag r p s).slc.damageRun = s.slc.damageRun ∧
    (takeOpen k tag r p s).slc.silent = s.slc.silent ∧ (takeOpen k tag r p s).slc.sle = s.slc.sle ∧
    (takeOpen k tag r p s).slc.sltRecessive = s.slc.sltRecessive ∧ (takeOpen k tag r p s).ssv.own = s.ssv.own ∧
    (takeOpen k tag r p s).ssv.boot = s.ssv.boot ∧ (takeOpen k tag r p s).ssv.status = s.ssv.status ∧
    (takeOpen k tag r p s).ssv.version = s.ssv.version ∧ (takeOpen k tag r p s).ssv.minuteDue = s.ssv.minuteDue ∧
    (takeOpen k tag r p s).ssv.rosterDue = s.ssv.rosterDue ∧ (takeOpen k tag r p s).ssv.peers = s.ssv.peers ∧
    (takeOpen k tag r p s).ssv.bootBus = s.ssv.bootBus ∧
    (takeOpen k tag r p s).ssv.bootSteps = s.ssv.bootSteps ∧ (takeOpen k tag r p s).pending = s.pending := by
  refine ⟨?_, ?_, ?_, ?_, ?_, ?_, ?_, ?_, ?_, ?_, ?_, ?_, ?_, ?_, ?_, ?_, ?_, ?_, ?_, ?_, ?_, ?_, ?_, ?_, ?_, ?_⟩ <;>
    (unfold takeOpen; (repeat' first | split | dsimp only) <;> simp)
@[simp] theorem judgeOpen_keeps (st : Station) (t : Nat) (k : Key) (tag rate : Byte) (d : BitVec 16) :
    (judgeOpen st t k tag rate d s).phase = s.phase ∧ (judgeOpen st t k tag rate d s).clock = s.clock ∧
    (judgeOpen st t k tag rate d s).lcu = s.lcu ∧ (judgeOpen st t k tag rate d s).lfr = s.lfr ∧
    (judgeOpen st t k tag rate d s).cst.pages = s.cst.pages ∧
    (judgeOpen st t k tag rate d s).cst.ownSequence = s.cst.ownSequence ∧
    (judgeOpen st t k tag rate d s).xen.tallyDue = s.xen.tallyDue ∧
    (judgeOpen st t k tag rate d s).xen.tallyPtr = s.xen.tallyPtr ∧
    (judgeOpen st t k tag rate d s).slc.lineState = s.slc.lineState ∧
    (judgeOpen st t k tag rate d s).slc.recessiveRun = s.slc.recessiveRun ∧
    (judgeOpen st t k tag rate d s).slc.rx = s.slc.rx ∧ (judgeOpen st t k tag rate d s).slc.role = s.slc.role ∧
    (judgeOpen st t k tag rate d s).slc.damageRun = s.slc.damageRun ∧
    (judgeOpen st t k tag rate d s).slc.silent = s.slc.silent ∧ (judgeOpen st t k tag rate d s).slc.sle = s.slc.sle ∧
    (judgeOpen st t k tag rate d s).slc.sltRecessive = s.slc.sltRecessive ∧
    (judgeOpen st t k tag rate d s).ssv.own = s.ssv.own ∧ (judgeOpen st t k tag rate d s).ssv.boot = s.ssv.boot ∧
    (judgeOpen st t k tag rate d s).ssv.status = s.ssv.status ∧
    (judgeOpen st t k tag rate d s).ssv.version = s.ssv.version ∧
    (judgeOpen st t k tag rate d s).ssv.minuteDue = s.ssv.minuteDue ∧
    (judgeOpen st t k tag rate d s).ssv.rosterDue = s.ssv.rosterDue ∧
    (judgeOpen st t k tag rate d s).ssv.peers = s.ssv.peers ∧
    (judgeOpen st t k tag rate d s).ssv.bootBus = s.ssv.bootBus ∧
    (judgeOpen st t k tag rate d s).ssv.bootSteps = s.ssv.bootSteps ∧ (judgeOpen st t k tag rate d s).pending = s.pending := by
  refine ⟨?_, ?_, ?_, ?_, ?_, ?_, ?_, ?_, ?_, ?_, ?_, ?_, ?_, ?_, ?_, ?_, ?_, ?_, ?_, ?_, ?_, ?_, ?_, ?_, ?_, ?_⟩ <;>
    (unfold judgeOpen; (repeat' first | split | dsimp only) <;> simp)
@[simp] theorem judgeClose_keeps (k : Key) (n : BitVec 16) (r : Byte) :
    (judgeClose k n r s).phase = s.phase ∧ (judgeClose k n r s).clock = s.clock ∧ (judgeClose k n r s).lcu = s.lcu ∧
    (judgeClose k n r s).lfr = s.lfr ∧ (judgeClose k n r s).cst.pages = s.cst.pages ∧
    (judgeClose k n r s).cst.free = s.cst.free ∧ (judgeClose k n r s).cst.poolReported = s.cst.poolReported ∧
    (judgeClose k n r s).cst.evictPtr = s.cst.evictPtr ∧ (judgeClose k n r s).cst.ownSequence = s.cst.ownSequence ∧
    (judgeClose k n r s).xen.views = s.xen.views ∧ (judgeClose k n r s).xen.tallyDue = s.xen.tallyDue ∧
    (judgeClose k n r s).xen.tallyPtr = s.xen.tallyPtr ∧ (judgeClose k n r s).xen.claims = s.xen.claims ∧
    (judgeClose k n r s).xen.build = s.xen.build ∧ (judgeClose k n r s).xen.assemblies = s.xen.assemblies ∧
    (judgeClose k n r s).slc.lineState = s.slc.lineState ∧
    (judgeClose k n r s).slc.recessiveRun = s.slc.recessiveRun ∧ (judgeClose k n r s).slc.rx = s.slc.rx ∧
    (judgeClose k n r s).slc.role = s.slc.role ∧ (judgeClose k n r s).slc.damageRun = s.slc.damageRun ∧
    (judgeClose k n r s).slc.silent = s.slc.silent ∧ (judgeClose k n r s).slc.sle = s.slc.sle ∧
    (judgeClose k n r s).slc.sltRecessive = s.slc.sltRecessive ∧ (judgeClose k n r s).ssv.own = s.ssv.own ∧
    (judgeClose k n r s).ssv.boot = s.ssv.boot ∧ (judgeClose k n r s).ssv.status = s.ssv.status ∧
    (judgeClose k n r s).ssv.version = s.ssv.version ∧ (judgeClose k n r s).ssv.minuteDue = s.ssv.minuteDue ∧
    (judgeClose k n r s).ssv.rosterDue = s.ssv.rosterDue ∧ (judgeClose k n r s).ssv.peers = s.ssv.peers ∧
    (judgeClose k n r s).ssv.bootBus = s.ssv.bootBus ∧
    (judgeClose k n r s).ssv.bootSteps = s.ssv.bootSteps ∧ (judgeClose k n r s).pending = s.pending := by
  refine ⟨?_, ?_, ?_, ?_, ?_, ?_, ?_, ?_, ?_, ?_, ?_, ?_, ?_, ?_, ?_, ?_, ?_, ?_, ?_, ?_, ?_, ?_, ?_, ?_, ?_, ?_, ?_, ?_, ?_, ?_, ?_, ?_, ?_⟩ <;>
    (unfold judgeClose; (repeat' first | split | dsimp only) <;> simp)
@[simp] theorem judgeDrop_keeps (k : Key) :
    (judgeDrop k s).phase = s.phase ∧ (judgeDrop k s).clock = s.clock ∧ (judgeDrop k s).lcu = s.lcu ∧
    (judgeDrop k s).lfr = s.lfr ∧ (judgeDrop k s).cst.pages = s.cst.pages ∧
    (judgeDrop k s).cst.evictPtr = s.cst.evictPtr ∧ (judgeDrop k s).cst.ownSequence = s.cst.ownSequence ∧
    (judgeDrop k s).xen.tallyDue = s.xen.tallyDue ∧ (judgeDrop k s).xen.tallyPtr = s.xen.tallyPtr ∧
    (judgeDrop k s).slc.lineState = s.slc.lineState ∧ (judgeDrop k s).slc.recessiveRun = s.slc.recessiveRun ∧
    (judgeDrop k s).slc.rx = s.slc.rx ∧ (judgeDrop k s).slc.role = s.slc.role ∧
    (judgeDrop k s).slc.damageRun = s.slc.damageRun ∧ (judgeDrop k s).slc.silent = s.slc.silent ∧
    (judgeDrop k s).slc.sle = s.slc.sle ∧ (judgeDrop k s).slc.sltRecessive = s.slc.sltRecessive ∧
    (judgeDrop k s).ssv.own = s.ssv.own ∧ (judgeDrop k s).ssv.boot = s.ssv.boot ∧
    (judgeDrop k s).ssv.status = s.ssv.status ∧ (judgeDrop k s).ssv.version = s.ssv.version ∧
    (judgeDrop k s).ssv.minuteDue = s.ssv.minuteDue ∧ (judgeDrop k s).ssv.rosterDue = s.ssv.rosterDue ∧
    (judgeDrop k s).ssv.peers = s.ssv.peers ∧ (judgeDrop k s).ssv.bootBus = s.ssv.bootBus ∧
    (judgeDrop k s).ssv.bootSteps = s.ssv.bootSteps ∧
    (judgeDrop k s).pending = s.pending := by
  refine ⟨?_, ?_, ?_, ?_, ?_, ?_, ?_, ?_, ?_, ?_, ?_, ?_, ?_, ?_, ?_, ?_, ?_, ?_, ?_, ?_, ?_, ?_, ?_, ?_, ?_, ?_, ?_⟩ <;>
    (unfold judgeDrop; (repeat' first | split | dsimp only) <;> simp)

/-! ## Tallies and wants (R118 to R136) -/

theorem writeCodes_preserves {α : Type} (φ : State → α) (h : ∀ i r j c s, φ (setPeerCode i r j c s) = φ s) (i : SlotNo) (r : Receiver) :
    ∀ (codes : List (BitVec 4)) (j : Nat) (s : State), φ (writeCodes i r j codes s) = φ s := by
  intro codes
  induction codes with
  | nil => intro j s; rfl
  | cons c rest ih => intro j s; unfold writeCodes; rw [ih, h]

@[simp] theorem writeCodes_keeps (i : SlotNo) (r : Receiver) (j : Nat) (c : List (BitVec 4)) :
    (writeCodes i r j c s).phase = s.phase ∧ (writeCodes i r j c s).clock = s.clock ∧
    (writeCodes i r j c s).lcu = s.lcu ∧ (writeCodes i r j c s).lfr = s.lfr ∧ (writeCodes i r j c s).cst = s.cst ∧
    (writeCodes i r j c s).xen.openReq = s.xen.openReq ∧ (writeCodes i r j c s).xen.tallyDue = s.xen.tallyDue ∧
    (writeCodes i r j c s).xen.tallyPtr = s.xen.tallyPtr ∧ (writeCodes i r j c s).xen.claims = s.xen.claims ∧
    (writeCodes i r j c s).xen.build = s.xen.build ∧ (writeCodes i r j c s).xen.assemblies = s.xen.assemblies ∧
    (writeCodes i r j c s).slc = s.slc ∧ (writeCodes i r j c s).ssv = s.ssv ∧
    (writeCodes i r j c s).pending = s.pending := by
  exact ⟨
    writeCodes_preserves (fun s => s.phase) (by simp) i r c j s,
    writeCodes_preserves (fun s => s.clock) (by simp) i r c j s,
    writeCodes_preserves (fun s => s.lcu) (by simp) i r c j s,
    writeCodes_preserves (fun s => s.lfr) (by simp) i r c j s,
    writeCodes_preserves (fun s => s.cst) (by simp) i r c j s,
    writeCodes_preserves (fun s => s.xen.openReq) (by simp) i r c j s,
    writeCodes_preserves (fun s => s.xen.tallyDue) (by simp) i r c j s,
    writeCodes_preserves (fun s => s.xen.tallyPtr) (by simp) i r c j s,
    writeCodes_preserves (fun s => s.xen.claims) (by simp) i r c j s,
    writeCodes_preserves (fun s => s.xen.build) (by simp) i r c j s,
    writeCodes_preserves (fun s => s.xen.assemblies) (by simp) i r c j s,
    writeCodes_preserves (fun s => s.slc) (by simp) i r c j s,
    writeCodes_preserves (fun s => s.ssv) (by simp) i r c j s,
    writeCodes_preserves (fun s => s.pending) (by simp) i r c j s⟩
@[simp] theorem judgeTally_keeps (st : Station) (k : Key) (b : BitVec 16) (c : List (BitVec 4)) :
    (judgeTally st k b c s).phase = s.phase ∧ (judgeTally st k b c s).clock = s.clock ∧
    (judgeTally st k b c s).lcu = s.lcu ∧ (judgeTally st k b c s).lfr = s.lfr ∧ (judgeTally st k b c s).cst = s.cst ∧
    (judgeTally st k b c s).xen.openReq = s.xen.openReq ∧ (judgeTally st k b c s).xen.tallyDue = s.xen.tallyDue ∧
    (judgeTally st k b c s).xen.tallyPtr = s.xen.tallyPtr ∧ (judgeTally st k b c s).xen.claims = s.xen.claims ∧
    (judgeTally st k b c s).xen.build = s.xen.build ∧ (judgeTally st k b c s).xen.assemblies = s.xen.assemblies ∧
    (judgeTally st k b c s).slc = s.slc ∧ (judgeTally st k b c s).ssv.own = s.ssv.own ∧
    (judgeTally st k b c s).ssv.boot = s.ssv.boot ∧ (judgeTally st k b c s).ssv.status = s.ssv.status ∧
    (judgeTally st k b c s).ssv.version = s.ssv.version ∧ (judgeTally st k b c s).ssv.minuteDue = s.ssv.minuteDue ∧
    (judgeTally st k b c s).ssv.rosterDue = s.ssv.rosterDue ∧ (judgeTally st k b c s).ssv.peers = s.ssv.peers ∧
    (judgeTally st k b c s).ssv.bootBus = s.ssv.bootBus ∧
    (judgeTally st k b c s).ssv.bootSteps = s.ssv.bootSteps ∧ (judgeTally st k b c s).pending = s.pending := by
  refine ⟨?_, ?_, ?_, ?_, ?_, ?_, ?_, ?_, ?_, ?_, ?_, ?_, ?_, ?_, ?_, ?_, ?_, ?_, ?_, ?_, ?_, ?_⟩ <;>
    (unfold judgeTally; (repeat' first | split | dsimp only) <;> simp)
theorem queueTallies_preserves {α : Type} (φ : State → α) (he : ∀ e s, φ (enqueue e s).1 = φ s)
    (hu : ∀ i f s, φ (updateChart i f s) = φ s) (i : SlotNo) :
    ∀ (n : Nat) (bs : List Nat) (s : State), φ (queueTallies i n bs s) = φ s := by
  intro n
  induction n with
  | zero => intro bs s; unfold queueTallies; rfl
  | succ n ih =>
    intro bs s
    unfold queueTallies
    split
    · rfl
    · rfl
    · split
      · rfl
      · dsimp only
        split
        · simp_all
        · rw [he]

@[simp] theorem queueTallies_keeps (i : SlotNo) (n : Nat) (b : List Nat) :
    (queueTallies i n b s).phase = s.phase ∧ (queueTallies i n b s).clock = s.clock ∧
    (queueTallies i n b s).lcu = s.lcu ∧ (queueTallies i n b s).lfr = s.lfr ∧
    (queueTallies i n b s).cst.pages = s.cst.pages ∧ (queueTallies i n b s).cst.free = s.cst.free ∧
    (queueTallies i n b s).cst.poolReported = s.cst.poolReported ∧
    (queueTallies i n b s).cst.evictPtr = s.cst.evictPtr ∧
    (queueTallies i n b s).cst.ownSequence = s.cst.ownSequence ∧ (queueTallies i n b s).xen = s.xen ∧
    (queueTallies i n b s).slc.lineState = s.slc.lineState ∧
    (queueTallies i n b s).slc.recessiveRun = s.slc.recessiveRun ∧ (queueTallies i n b s).slc.rx = s.slc.rx ∧
    (queueTallies i n b s).slc.role = s.slc.role ∧ (queueTallies i n b s).slc.damageRun = s.slc.damageRun ∧
    (queueTallies i n b s).slc.silent = s.slc.silent ∧ (queueTallies i n b s).slc.sle = s.slc.sle ∧
    (queueTallies i n b s).slc.sltRecessive = s.slc.sltRecessive ∧ (queueTallies i n b s).ssv.own = s.ssv.own ∧
    (queueTallies i n b s).ssv.boot = s.ssv.boot ∧ (queueTallies i n b s).ssv.status = s.ssv.status ∧
    (queueTallies i n b s).ssv.version = s.ssv.version ∧ (queueTallies i n b s).ssv.minuteDue = s.ssv.minuteDue ∧
    (queueTallies i n b s).ssv.rosterDue = s.ssv.rosterDue ∧ (queueTallies i n b s).ssv.peers = s.ssv.peers ∧
    (queueTallies i n b s).ssv.bootBus = s.ssv.bootBus ∧
    (queueTallies i n b s).ssv.bootSteps = s.ssv.bootSteps ∧ (queueTallies i n b s).pending = s.pending := by
  exact ⟨
    queueTallies_preserves (fun s => s.phase) (by simp) (by simp) i n b s,
    queueTallies_preserves (fun s => s.clock) (by simp) (by simp) i n b s,
    queueTallies_preserves (fun s => s.lcu) (by simp) (by simp) i n b s,
    queueTallies_preserves (fun s => s.lfr) (by simp) (by simp) i n b s,
    queueTallies_preserves (fun s => s.cst.pages) (by simp) (by simp) i n b s,
    queueTallies_preserves (fun s => s.cst.free) (by simp) (by simp) i n b s,
    queueTallies_preserves (fun s => s.cst.poolReported) (by simp) (by simp) i n b s,
    queueTallies_preserves (fun s => s.cst.evictPtr) (by simp) (by simp) i n b s,
    queueTallies_preserves (fun s => s.cst.ownSequence) (by simp) (by simp) i n b s,
    queueTallies_preserves (fun s => s.xen) (by simp) (by simp) i n b s,
    queueTallies_preserves (fun s => s.slc.lineState) (by simp) (by simp) i n b s,
    queueTallies_preserves (fun s => s.slc.recessiveRun) (by simp) (by simp) i n b s,
    queueTallies_preserves (fun s => s.slc.rx) (by simp) (by simp) i n b s,
    queueTallies_preserves (fun s => s.slc.role) (by simp) (by simp) i n b s,
    queueTallies_preserves (fun s => s.slc.damageRun) (by simp) (by simp) i n b s,
    queueTallies_preserves (fun s => s.slc.silent) (by simp) (by simp) i n b s,
    queueTallies_preserves (fun s => s.slc.sle) (by simp) (by simp) i n b s,
    queueTallies_preserves (fun s => s.slc.sltRecessive) (by simp) (by simp) i n b s,
    queueTallies_preserves (fun s => s.ssv.own) (by simp) (by simp) i n b s,
    queueTallies_preserves (fun s => s.ssv.boot) (by simp) (by simp) i n b s,
    queueTallies_preserves (fun s => s.ssv.status) (by simp) (by simp) i n b s,
    queueTallies_preserves (fun s => s.ssv.version) (by simp) (by simp) i n b s,
    queueTallies_preserves (fun s => s.ssv.minuteDue) (by simp) (by simp) i n b s,
    queueTallies_preserves (fun s => s.ssv.rosterDue) (by simp) (by simp) i n b s,
    queueTallies_preserves (fun s => s.ssv.peers) (by simp) (by simp) i n b s,
    queueTallies_preserves (fun s => s.ssv.bootBus) (by simp) (by simp) i n b s,
    queueTallies_preserves (fun s => s.ssv.bootSteps) (by simp) (by simp) i n b s,
    queueTallies_preserves (fun s => s.pending) (by simp) (by simp) i n b s⟩
@[simp] theorem tallyRound_keeps :
    (tallyRound s).phase = s.phase ∧ (tallyRound s).clock = s.clock ∧ (tallyRound s).lcu = s.lcu ∧
    (tallyRound s).lfr = s.lfr ∧ (tallyRound s).cst.pages = s.cst.pages ∧ (tallyRound s).cst.free = s.cst.free ∧
    (tallyRound s).cst.poolReported = s.cst.poolReported ∧ (tallyRound s).cst.evictPtr = s.cst.evictPtr ∧
    (tallyRound s).cst.ownSequence = s.cst.ownSequence ∧ (tallyRound s).xen.views = s.xen.views ∧
    (tallyRound s).xen.openReq = s.xen.openReq ∧ (tallyRound s).xen.tallyDue = s.xen.tallyDue ∧
    (tallyRound s).xen.claims = s.xen.claims ∧ (tallyRound s).xen.build = s.xen.build ∧
    (tallyRound s).xen.assemblies = s.xen.assemblies ∧ (tallyRound s).slc.lineState = s.slc.lineState ∧
    (tallyRound s).slc.recessiveRun = s.slc.recessiveRun ∧ (tallyRound s).slc.rx = s.slc.rx ∧
    (tallyRound s).slc.role = s.slc.role ∧ (tallyRound s).slc.damageRun = s.slc.damageRun ∧
    (tallyRound s).slc.silent = s.slc.silent ∧ (tallyRound s).slc.sle = s.slc.sle ∧
    (tallyRound s).slc.sltRecessive = s.slc.sltRecessive ∧ (tallyRound s).ssv.own = s.ssv.own ∧
    (tallyRound s).ssv.boot = s.ssv.boot ∧ (tallyRound s).ssv.status = s.ssv.status ∧
    (tallyRound s).ssv.version = s.ssv.version ∧ (tallyRound s).ssv.minuteDue = s.ssv.minuteDue ∧
    (tallyRound s).ssv.rosterDue = s.ssv.rosterDue ∧ (tallyRound s).ssv.peers = s.ssv.peers ∧
    (tallyRound s).ssv.bootBus = s.ssv.bootBus ∧
    (tallyRound s).ssv.bootSteps = s.ssv.bootSteps ∧ (tallyRound s).pending = s.pending := by
  refine ⟨?_, ?_, ?_, ?_, ?_, ?_, ?_, ?_, ?_, ?_, ?_, ?_, ?_, ?_, ?_, ?_, ?_, ?_, ?_, ?_, ?_, ?_, ?_, ?_, ?_, ?_, ?_, ?_, ?_, ?_, ?_, ?_, ?_⟩ <;>
    (unfold tallyRound; (repeat' first | split | dsimp only) <;> simp)
@[simp] theorem wantRound_keeps (i : SlotNo) :
    (wantRound i s).phase = s.phase ∧ (wantRound i s).clock = s.clock ∧ (wantRound i s).lcu = s.lcu ∧
    (wantRound i s).lfr = s.lfr ∧ (wantRound i s).cst = s.cst ∧ (wantRound i s).xen = s.xen ∧
    (wantRound i s).slc.lineState = s.slc.lineState ∧ (wantRound i s).slc.recessiveRun = s.slc.recessiveRun ∧
    (wantRound i s).slc.rx = s.slc.rx ∧ (wantRound i s).slc.role = s.slc.role ∧
    (wantRound i s).slc.damageRun = s.slc.damageRun ∧ (wantRound i s).slc.silent = s.slc.silent ∧
    (wantRound i s).slc.sle = s.slc.sle ∧ (wantRound i s).slc.sltRecessive = s.slc.sltRecessive ∧
    (wantRound i s).ssv.own = s.ssv.own ∧ (wantRound i s).ssv.boot = s.ssv.boot ∧
    (wantRound i s).ssv.status = s.ssv.status ∧ (wantRound i s).ssv.version = s.ssv.version ∧
    (wantRound i s).ssv.minuteDue = s.ssv.minuteDue ∧ (wantRound i s).ssv.rosterDue = s.ssv.rosterDue ∧
    (wantRound i s).ssv.peers = s.ssv.peers ∧ (wantRound i s).ssv.bootBus = s.ssv.bootBus ∧
    (wantRound i s).ssv.bootSteps = s.ssv.bootSteps ∧
    (wantRound i s).pending = s.pending := by
  refine ⟨?_, ?_, ?_, ?_, ?_, ?_, ?_, ?_, ?_, ?_, ?_, ?_, ?_, ?_, ?_, ?_, ?_, ?_, ?_, ?_, ?_, ?_, ?_, ?_⟩ <;>
    (unfold wantRound; (repeat' first | split | dsimp only) <;> simp)
@[simp] theorem answerWant_keeps (i : SlotNo) (b : Nat) (m : BitVec 32) (c : List (BitVec 4)) :
    (answerWant i b m c s).phase = s.phase ∧ (answerWant i b m c s).clock = s.clock ∧
    (answerWant i b m c s).lcu = s.lcu ∧ (answerWant i b m c s).lfr = s.lfr ∧ (answerWant i b m c s).cst = s.cst ∧
    (answerWant i b m c s).xen.views = s.xen.views ∧ (answerWant i b m c s).xen.openReq = s.xen.openReq ∧
    (answerWant i b m c s).xen.tallyDue = s.xen.tallyDue ∧ (answerWant i b m c s).xen.tallyPtr = s.xen.tallyPtr ∧
    (answerWant i b m c s).xen.build = s.xen.build ∧ (answerWant i b m c s).xen.assemblies = s.xen.assemblies ∧
    (answerWant i b m c s).slc.lineState = s.slc.lineState ∧
    (answerWant i b m c s).slc.recessiveRun = s.slc.recessiveRun ∧ (answerWant i b m c s).slc.rx = s.slc.rx ∧
    (answerWant i b m c s).slc.role = s.slc.role ∧ (answerWant i b m c s).slc.damageRun = s.slc.damageRun ∧
    (answerWant i b m c s).slc.silent = s.slc.silent ∧ (answerWant i b m c s).slc.sle = s.slc.sle ∧
    (answerWant i b m c s).slc.sltRecessive = s.slc.sltRecessive ∧ (answerWant i b m c s).ssv.own = s.ssv.own ∧
    (answerWant i b m c s).ssv.boot = s.ssv.boot ∧ (answerWant i b m c s).ssv.status = s.ssv.status ∧
    (answerWant i b m c s).ssv.version = s.ssv.version ∧ (answerWant i b m c s).ssv.minuteDue = s.ssv.minuteDue ∧
    (answerWant i b m c s).ssv.rosterDue = s.ssv.rosterDue ∧ (answerWant i b m c s).ssv.peers = s.ssv.peers ∧
    (answerWant i b m c s).ssv.bootBus = s.ssv.bootBus ∧
    (answerWant i b m c s).ssv.bootSteps = s.ssv.bootSteps ∧ (answerWant i b m c s).pending = s.pending := by
  refine ⟨?_, ?_, ?_, ?_, ?_, ?_, ?_, ?_, ?_, ?_, ?_, ?_, ?_, ?_, ?_, ?_, ?_, ?_, ?_, ?_, ?_, ?_, ?_, ?_, ?_, ?_, ?_, ?_, ?_⟩ <;>
    (unfold answerWant; (repeat' first | split | dsimp only) <;> simp)
@[simp] theorem judgeWant_keeps (k : Key) (b : BitVec 16) (m : BitVec 32) (c : List (BitVec 4)) (a : BitVec 16) :
    (judgeWant k b m c a s).phase = s.phase ∧ (judgeWant k b m c a s).clock = s.clock ∧
    (judgeWant k b m c a s).lcu = s.lcu ∧ (judgeWant k b m c a s).lfr = s.lfr ∧
    (judgeWant k b m c a s).cst.pages = s.cst.pages ∧ (judgeWant k b m c a s).cst.free = s.cst.free ∧
    (judgeWant k b m c a s).cst.poolReported = s.cst.poolReported ∧
    (judgeWant k b m c a s).cst.evictPtr = s.cst.evictPtr ∧
    (judgeWant k b m c a s).cst.ownSequence = s.cst.ownSequence ∧ (judgeWant k b m c a s).xen.views = s.xen.views ∧
    (judgeWant k b m c a s).xen.openReq = s.xen.openReq ∧ (judgeWant k b m c a s).xen.tallyDue = s.xen.tallyDue ∧
    (judgeWant k b m c a s).xen.tallyPtr = s.xen.tallyPtr ∧ (judgeWant k b m c a s).xen.build = s.xen.build ∧
    (judgeWant k b m c a s).xen.assemblies = s.xen.assemblies ∧
    (judgeWant k b m c a s).slc.lineState = s.slc.lineState ∧
    (judgeWant k b m c a s).slc.recessiveRun = s.slc.recessiveRun ∧ (judgeWant k b m c a s).slc.rx = s.slc.rx ∧
    (judgeWant k b m c a s).slc.role = s.slc.role ∧ (judgeWant k b m c a s).slc.damageRun = s.slc.damageRun ∧
    (judgeWant k b m c a s).slc.silent = s.slc.silent ∧ (judgeWant k b m c a s).slc.sle = s.slc.sle ∧
    (judgeWant k b m c a s).slc.sltRecessive = s.slc.sltRecessive ∧ (judgeWant k b m c a s).ssv.own = s.ssv.own ∧
    (judgeWant k b m c a s).ssv.boot = s.ssv.boot ∧ (judgeWant k b m c a s).ssv.status = s.ssv.status ∧
    (judgeWant k b m c a s).ssv.version = s.ssv.version ∧ (judgeWant k b m c a s).ssv.minuteDue = s.ssv.minuteDue ∧
    (judgeWant k b m c a s).ssv.rosterDue = s.ssv.rosterDue ∧ (judgeWant k b m c a s).ssv.peers = s.ssv.peers ∧
    (judgeWant k b m c a s).ssv.bootBus = s.ssv.bootBus ∧
    (judgeWant k b m c a s).ssv.bootSteps = s.ssv.bootSteps ∧ (judgeWant k b m c a s).pending = s.pending := by
  refine ⟨?_, ?_, ?_, ?_, ?_, ?_, ?_, ?_, ?_, ?_, ?_, ?_, ?_, ?_, ?_, ?_, ?_, ?_, ?_, ?_, ?_, ?_, ?_, ?_, ?_, ?_, ?_, ?_, ?_, ?_, ?_, ?_, ?_⟩ <;>
    (unfold judgeWant; (repeat' first | split | dsimp only) <;> simp)

/-! ## Claims (R138 to R141) -/

@[simp] theorem yieldPending_keeps (k : Key) (b p c : Nat) :
    (yieldPending k b p c s).phase = s.phase ∧ (yieldPending k b p c s).clock = s.clock ∧
    (yieldPending k b p c s).lcu = s.lcu ∧ (yieldPending k b p c s).lfr = s.lfr ∧
    (yieldPending k b p c s).cst = s.cst ∧ (yieldPending k b p c s).xen.views = s.xen.views ∧
    (yieldPending k b p c s).xen.openReq = s.xen.openReq ∧ (yieldPending k b p c s).xen.tallyDue = s.xen.tallyDue ∧
    (yieldPending k b p c s).xen.tallyPtr = s.xen.tallyPtr ∧
    (yieldPending k b p c s).xen.assemblies = s.xen.assemblies ∧
    (yieldPending k b p c s).slc.lineState = s.slc.lineState ∧
    (yieldPending k b p c s).slc.recessiveRun = s.slc.recessiveRun ∧ (yieldPending k b p c s).slc.rx = s.slc.rx ∧
    (yieldPending k b p c s).slc.role = s.slc.role ∧ (yieldPending k b p c s).slc.damageRun = s.slc.damageRun ∧
    (yieldPending k b p c s).slc.silent = s.slc.silent ∧ (yieldPending k b p c s).slc.sle = s.slc.sle ∧
    (yieldPending k b p c s).slc.sltRecessive = s.slc.sltRecessive ∧ (yieldPending k b p c s).ssv.own = s.ssv.own ∧
    (yieldPending k b p c s).ssv.boot = s.ssv.boot ∧ (yieldPending k b p c s).ssv.status = s.ssv.status ∧
    (yieldPending k b p c s).ssv.version = s.ssv.version ∧ (yieldPending k b p c s).ssv.minuteDue = s.ssv.minuteDue ∧
    (yieldPending k b p c s).ssv.rosterDue = s.ssv.rosterDue ∧ (yieldPending k b p c s).ssv.peers = s.ssv.peers ∧
    (yieldPending k b p c s).ssv.bootBus = s.ssv.bootBus ∧
    (yieldPending k b p c s).ssv.bootSteps = s.ssv.bootSteps ∧ (yieldPending k b p c s).pending = s.pending := by
  refine ⟨?_, ?_, ?_, ?_, ?_, ?_, ?_, ?_, ?_, ?_, ?_, ?_, ?_, ?_, ?_, ?_, ?_, ?_, ?_, ?_, ?_, ?_, ?_, ?_, ?_, ?_, ?_, ?_⟩ <;>
    (unfold yieldPending; (repeat' first | split | dsimp only) <;> simp)
@[simp] theorem recordHeard_keeps (k : Key) (j : Nat) (r : Receiver) (t : Nat) :
    (recordHeard k j r t s).phase = s.phase ∧ (recordHeard k j r t s).clock = s.clock ∧
    (recordHeard k j r t s).lcu = s.lcu ∧ (recordHeard k j r t s).lfr = s.lfr ∧ (recordHeard k j r t s).cst = s.cst ∧
    (recordHeard k j r t s).xen.views = s.xen.views ∧ (recordHeard k j r t s).xen.openReq = s.xen.openReq ∧
    (recordHeard k j r t s).xen.tallyDue = s.xen.tallyDue ∧ (recordHeard k j r t s).xen.tallyPtr = s.xen.tallyPtr ∧
    (recordHeard k j r t s).xen.build = s.xen.build ∧ (recordHeard k j r t s).xen.assemblies = s.xen.assemblies ∧
    (recordHeard k j r t s).slc = s.slc ∧ (recordHeard k j r t s).ssv.own = s.ssv.own ∧
    (recordHeard k j r t s).ssv.boot = s.ssv.boot ∧ (recordHeard k j r t s).ssv.status = s.ssv.status ∧
    (recordHeard k j r t s).ssv.version = s.ssv.version ∧ (recordHeard k j r t s).ssv.minuteDue = s.ssv.minuteDue ∧
    (recordHeard k j r t s).ssv.rosterDue = s.ssv.rosterDue ∧ (recordHeard k j r t s).ssv.peers = s.ssv.peers ∧
    (recordHeard k j r t s).ssv.bootBus = s.ssv.bootBus ∧
    (recordHeard k j r t s).ssv.bootSteps = s.ssv.bootSteps ∧ (recordHeard k j r t s).pending = s.pending := by
  refine ⟨?_, ?_, ?_, ?_, ?_, ?_, ?_, ?_, ?_, ?_, ?_, ?_, ?_, ?_, ?_, ?_, ?_, ?_, ?_, ?_, ?_, ?_⟩ <;>
    (unfold recordHeard; dsimp only; (repeat' first | split | dsimp only) <;> simp)
theorem takeClaimLines_preserves {α : Type} (φ : State → α) (hy : ∀ k b p c s, φ (yieldPending k b p c s) = φ s)
    (hr : ∀ k j r t s, φ (recordHeard k j r t s) = φ s) (hp : ∀ i r j c s, φ (setPeerCode i r j c s) = φ s)
    (i : SlotNo) (k : Key) (r : Receiver) (b t : Nat) (c : List (BitVec 4)) :
    ∀ (ps : List Nat) (s : State), φ (takeClaimLines i k r b t c ps s) = φ s := by
  intro ps
  induction ps with
  | nil => intro s; rfl
  | cons p rest ih => intro s; unfold takeClaimLines; dsimp only; rw [ih, hp, hr, hy]

@[simp] theorem takeClaimLines_keeps (i : SlotNo) (k : Key) (r : Receiver) (b t : Nat) (c : List (BitVec 4)) (ps : List Nat) :
    (takeClaimLines i k r b t c ps s).phase = s.phase ∧ (takeClaimLines i k r b t c ps s).clock = s.clock ∧
    (takeClaimLines i k r b t c ps s).lcu = s.lcu ∧ (takeClaimLines i k r b t c ps s).lfr = s.lfr ∧
    (takeClaimLines i k r b t c ps s).cst = s.cst ∧ (takeClaimLines i k r b t c ps s).xen.openReq = s.xen.openReq ∧
    (takeClaimLines i k r b t c ps s).xen.tallyDue = s.xen.tallyDue ∧
    (takeClaimLines i k r b t c ps s).xen.tallyPtr = s.xen.tallyPtr ∧
    (takeClaimLines i k r b t c ps s).xen.assemblies = s.xen.assemblies ∧
    (takeClaimLines i k r b t c ps s).slc.lineState = s.slc.lineState ∧
    (takeClaimLines i k r b t c ps s).slc.recessiveRun = s.slc.recessiveRun ∧
    (takeClaimLines i k r b t c ps s).slc.rx = s.slc.rx ∧ (takeClaimLines i k r b t c ps s).slc.role = s.slc.role ∧
    (takeClaimLines i k r b t c ps s).slc.damageRun = s.slc.damageRun ∧
    (takeClaimLines i k r b t c ps s).slc.silent = s.slc.silent ∧
    (takeClaimLines i k r b t c ps s).slc.sle = s.slc.sle ∧
    (takeClaimLines i k r b t c ps s).slc.sltRecessive = s.slc.sltRecessive ∧
    (takeClaimLines i k r b t c ps s).ssv.own = s.ssv.own ∧ (takeClaimLines i k r b t c ps s).ssv.boot = s.ssv.boot ∧
    (takeClaimLines i k r b t c ps s).ssv.status = s.ssv.status ∧
    (takeClaimLines i k r b t c ps s).ssv.version = s.ssv.version ∧
    (takeClaimLines i k r b t c ps s).ssv.minuteDue = s.ssv.minuteDue ∧
    (takeClaimLines i k r b t c ps s).ssv.rosterDue = s.ssv.rosterDue ∧
    (takeClaimLines i k r b t c ps s).ssv.peers = s.ssv.peers ∧
    (takeClaimLines i k r b t c ps s).ssv.bootBus = s.ssv.bootBus ∧
    (takeClaimLines i k r b t c ps s).ssv.bootSteps = s.ssv.bootSteps ∧
    (takeClaimLines i k r b t c ps s).pending = s.pending := by
  exact ⟨
    takeClaimLines_preserves (fun s => s.phase) (by simp) (by simp) (by simp) i k r b t c ps s,
    takeClaimLines_preserves (fun s => s.clock) (by simp) (by simp) (by simp) i k r b t c ps s,
    takeClaimLines_preserves (fun s => s.lcu) (by simp) (by simp) (by simp) i k r b t c ps s,
    takeClaimLines_preserves (fun s => s.lfr) (by simp) (by simp) (by simp) i k r b t c ps s,
    takeClaimLines_preserves (fun s => s.cst) (by simp) (by simp) (by simp) i k r b t c ps s,
    takeClaimLines_preserves (fun s => s.xen.openReq) (by simp) (by simp) (by simp) i k r b t c ps s,
    takeClaimLines_preserves (fun s => s.xen.tallyDue) (by simp) (by simp) (by simp) i k r b t c ps s,
    takeClaimLines_preserves (fun s => s.xen.tallyPtr) (by simp) (by simp) (by simp) i k r b t c ps s,
    takeClaimLines_preserves (fun s => s.xen.assemblies) (by simp) (by simp) (by simp) i k r b t c ps s,
    takeClaimLines_preserves (fun s => s.slc.lineState) (by simp) (by simp) (by simp) i k r b t c ps s,
    takeClaimLines_preserves (fun s => s.slc.recessiveRun) (by simp) (by simp) (by simp) i k r b t c ps s,
    takeClaimLines_preserves (fun s => s.slc.rx) (by simp) (by simp) (by simp) i k r b t c ps s,
    takeClaimLines_preserves (fun s => s.slc.role) (by simp) (by simp) (by simp) i k r b t c ps s,
    takeClaimLines_preserves (fun s => s.slc.damageRun) (by simp) (by simp) (by simp) i k r b t c ps s,
    takeClaimLines_preserves (fun s => s.slc.silent) (by simp) (by simp) (by simp) i k r b t c ps s,
    takeClaimLines_preserves (fun s => s.slc.sle) (by simp) (by simp) (by simp) i k r b t c ps s,
    takeClaimLines_preserves (fun s => s.slc.sltRecessive) (by simp) (by simp) (by simp) i k r b t c ps s,
    takeClaimLines_preserves (fun s => s.ssv.own) (by simp) (by simp) (by simp) i k r b t c ps s,
    takeClaimLines_preserves (fun s => s.ssv.boot) (by simp) (by simp) (by simp) i k r b t c ps s,
    takeClaimLines_preserves (fun s => s.ssv.status) (by simp) (by simp) (by simp) i k r b t c ps s,
    takeClaimLines_preserves (fun s => s.ssv.version) (by simp) (by simp) (by simp) i k r b t c ps s,
    takeClaimLines_preserves (fun s => s.ssv.minuteDue) (by simp) (by simp) (by simp) i k r b t c ps s,
    takeClaimLines_preserves (fun s => s.ssv.rosterDue) (by simp) (by simp) (by simp) i k r b t c ps s,
    takeClaimLines_preserves (fun s => s.ssv.peers) (by simp) (by simp) (by simp) i k r b t c ps s,
    takeClaimLines_preserves (fun s => s.ssv.bootBus) (by simp) (by simp) (by simp) i k r b t c ps s,
    takeClaimLines_preserves (fun s => s.ssv.bootSteps) (by simp) (by simp) (by simp) i k r b t c ps s,
    takeClaimLines_preserves (fun s => s.pending) (by simp) (by simp) (by simp) i k r b t c ps s⟩
@[simp] theorem judgeClaim_keeps (st : Station) (t : Nat) (k : Key) (b : BitVec 16) (m : BitVec 32) (c : List (BitVec 4)) :
    (judgeClaim st t k b m c s).phase = s.phase ∧ (judgeClaim st t k b m c s).clock = s.clock ∧
    (judgeClaim st t k b m c s).lcu = s.lcu ∧ (judgeClaim st t k b m c s).lfr = s.lfr ∧
    (judgeClaim st t k b m c s).cst = s.cst ∧ (judgeClaim st t k b m c s).xen.openReq = s.xen.openReq ∧
    (judgeClaim st t k b m c s).xen.tallyDue = s.xen.tallyDue ∧
    (judgeClaim st t k b m c s).xen.tallyPtr = s.xen.tallyPtr ∧
    (judgeClaim st t k b m c s).xen.assemblies = s.xen.assemblies ∧
    (judgeClaim st t k b m c s).slc.lineState = s.slc.lineState ∧
    (judgeClaim st t k b m c s).slc.recessiveRun = s.slc.recessiveRun ∧
    (judgeClaim st t k b m c s).slc.rx = s.slc.rx ∧ (judgeClaim st t k b m c s).slc.role = s.slc.role ∧
    (judgeClaim st t k b m c s).slc.damageRun = s.slc.damageRun ∧
    (judgeClaim st t k b m c s).slc.silent = s.slc.silent ∧ (judgeClaim st t k b m c s).slc.sle = s.slc.sle ∧
    (judgeClaim st t k b m c s).slc.sltRecessive = s.slc.sltRecessive ∧
    (judgeClaim st t k b m c s).ssv.own = s.ssv.own ∧ (judgeClaim st t k b m c s).ssv.boot = s.ssv.boot ∧
    (judgeClaim st t k b m c s).ssv.status = s.ssv.status ∧ (judgeClaim st t k b m c s).ssv.version = s.ssv.version ∧
    (judgeClaim st t k b m c s).ssv.minuteDue = s.ssv.minuteDue ∧
    (judgeClaim st t k b m c s).ssv.rosterDue = s.ssv.rosterDue ∧
    (judgeClaim st t k b m c s).ssv.peers = s.ssv.peers ∧ (judgeClaim st t k b m c s).ssv.bootBus = s.ssv.bootBus ∧
    (judgeClaim st t k b m c s).ssv.bootSteps = s.ssv.bootSteps ∧
    (judgeClaim st t k b m c s).pending = s.pending := by
  refine ⟨?_, ?_, ?_, ?_, ?_, ?_, ?_, ?_, ?_, ?_, ?_, ?_, ?_, ?_, ?_, ?_, ?_, ?_, ?_, ?_, ?_, ?_, ?_, ?_, ?_, ?_, ?_⟩ <;>
    (unfold judgeClaim; (repeat' first | split | dsimp only) <;> simp)

/-! ## Completions and silent mode (R86, R106, R107, R141, R146) -/

@[simp] theorem openCompletion_keeps (e : Entry) (k : Key) (d : BitVec 16) (b : Bool) :
    (openCompletion e k d b s).phase = s.phase ∧ (openCompletion e k d b s).clock = s.clock ∧
    (openCompletion e k d b s).lcu = s.lcu ∧ (openCompletion e k d b s).lfr = s.lfr ∧
    (openCompletion e k d b s).cst = s.cst ∧ (openCompletion e k d b s).xen.views = s.xen.views ∧
    (openCompletion e k d b s).xen.tallyDue = s.xen.tallyDue ∧
    (openCompletion e k d b s).xen.tallyPtr = s.xen.tallyPtr ∧ (openCompletion e k d b s).xen.claims = s.xen.claims ∧
    (openCompletion e k d b s).xen.build = s.xen.build ∧
    (openCompletion e k d b s).xen.assemblies = s.xen.assemblies ∧
    (openCompletion e k d b s).slc.lineState = s.slc.lineState ∧
    (openCompletion e k d b s).slc.recessiveRun = s.slc.recessiveRun ∧ (openCompletion e k d b s).slc.rx = s.slc.rx ∧
    (openCompletion e k d b s).slc.role = s.slc.role ∧ (openCompletion e k d b s).slc.damageRun = s.slc.damageRun ∧
    (openCompletion e k d b s).slc.silent = s.slc.silent ∧ (openCompletion e k d b s).slc.sle = s.slc.sle ∧
    (openCompletion e k d b s).slc.sltRecessive = s.slc.sltRecessive ∧
    (openCompletion e k d b s).ssv.own = s.ssv.own ∧ (openCompletion e k d b s).ssv.boot = s.ssv.boot ∧
    (openCompletion e k d b s).ssv.status = s.ssv.status ∧ (openCompletion e k d b s).ssv.version = s.ssv.version ∧
    (openCompletion e k d b s).ssv.minuteDue = s.ssv.minuteDue ∧
    (openCompletion e k d b s).ssv.rosterDue = s.ssv.rosterDue ∧ (openCompletion e k d b s).ssv.peers = s.ssv.peers ∧
    (openCompletion e k d b s).ssv.bootBus = s.ssv.bootBus ∧
    (openCompletion e k d b s).ssv.bootSteps = s.ssv.bootSteps ∧ (openCompletion e k d b s).pending = s.pending := by
  refine ⟨?_, ?_, ?_, ?_, ?_, ?_, ?_, ?_, ?_, ?_, ?_, ?_, ?_, ?_, ?_, ?_, ?_, ?_, ?_, ?_, ?_, ?_, ?_, ?_, ?_, ?_, ?_, ?_, ?_⟩ <;>
    (unfold openCompletion; cases b <;> (repeat' first | split | dsimp only) <;> simp)
theorem activateLines_preserves {α : Type} (φ : State → α) (hb : ∀ n k s, φ (bump n k s) = φ s) (hl : ∀ b s, φ (setBuild b s) = φ s)
    (hc : ∀ c s, φ (setClaims c s) = φ s) (k : Key) (b t : Nat) : ∀ (ps : List Nat) (s : State), φ (activateLines k b t ps s) = φ s := by
  intro ps
  induction ps with
  | nil => intro s; rfl
  | cons p rest ih =>
    intro s; unfold activateLines; dsimp only; rw [ih]
    split
    · rw [hb, hl, hc]
    · rfl

@[simp] theorem activateLines_keeps (k : Key) (b t : Nat) (ps : List Nat) :
    (activateLines k b t ps s).phase = s.phase ∧ (activateLines k b t ps s).clock = s.clock ∧
    (activateLines k b t ps s).lcu = s.lcu ∧ (activateLines k b t ps s).lfr = s.lfr ∧
    (activateLines k b t ps s).cst = s.cst ∧ (activateLines k b t ps s).xen.views = s.xen.views ∧
    (activateLines k b t ps s).xen.openReq = s.xen.openReq ∧
    (activateLines k b t ps s).xen.tallyDue = s.xen.tallyDue ∧
    (activateLines k b t ps s).xen.tallyPtr = s.xen.tallyPtr ∧
    (activateLines k b t ps s).xen.assemblies = s.xen.assemblies ∧ (activateLines k b t ps s).slc = s.slc ∧
    (activateLines k b t ps s).ssv.own = s.ssv.own ∧ (activateLines k b t ps s).ssv.boot = s.ssv.boot ∧
    (activateLines k b t ps s).ssv.status = s.ssv.status ∧ (activateLines k b t ps s).ssv.version = s.ssv.version ∧
    (activateLines k b t ps s).ssv.minuteDue = s.ssv.minuteDue ∧
    (activateLines k b t ps s).ssv.rosterDue = s.ssv.rosterDue ∧ (activateLines k b t ps s).ssv.peers = s.ssv.peers ∧
    (activateLines k b t ps s).ssv.bootBus = s.ssv.bootBus ∧
    (activateLines k b t ps s).ssv.bootSteps = s.ssv.bootSteps ∧ (activateLines k b t ps s).pending = s.pending := by
  exact ⟨
    activateLines_preserves (fun s => s.phase) (by simp) (by simp) (by simp) k b t ps s,
    activateLines_preserves (fun s => s.clock) (by simp) (by simp) (by simp) k b t ps s,
    activateLines_preserves (fun s => s.lcu) (by simp) (by simp) (by simp) k b t ps s,
    activateLines_preserves (fun s => s.lfr) (by simp) (by simp) (by simp) k b t ps s,
    activateLines_preserves (fun s => s.cst) (by simp) (by simp) (by simp) k b t ps s,
    activateLines_preserves (fun s => s.xen.views) (by simp) (by simp) (by simp) k b t ps s,
    activateLines_preserves (fun s => s.xen.openReq) (by simp) (by simp) (by simp) k b t ps s,
    activateLines_preserves (fun s => s.xen.tallyDue) (by simp) (by simp) (by simp) k b t ps s,
    activateLines_preserves (fun s => s.xen.tallyPtr) (by simp) (by simp) (by simp) k b t ps s,
    activateLines_preserves (fun s => s.xen.assemblies) (by simp) (by simp) (by simp) k b t ps s,
    activateLines_preserves (fun s => s.slc) (by simp) (by simp) (by simp) k b t ps s,
    activateLines_preserves (fun s => s.ssv.own) (by simp) (by simp) (by simp) k b t ps s,
    activateLines_preserves (fun s => s.ssv.boot) (by simp) (by simp) (by simp) k b t ps s,
    activateLines_preserves (fun s => s.ssv.status) (by simp) (by simp) (by simp) k b t ps s,
    activateLines_preserves (fun s => s.ssv.version) (by simp) (by simp) (by simp) k b t ps s,
    activateLines_preserves (fun s => s.ssv.minuteDue) (by simp) (by simp) (by simp) k b t ps s,
    activateLines_preserves (fun s => s.ssv.rosterDue) (by simp) (by simp) (by simp) k b t ps s,
    activateLines_preserves (fun s => s.ssv.peers) (by simp) (by simp) (by simp) k b t ps s,
    activateLines_preserves (fun s => s.ssv.bootBus) (by simp) (by simp) (by simp) k b t ps s,
    activateLines_preserves (fun s => s.ssv.bootSteps) (by simp) (by simp) (by simp) k b t ps s,
    activateLines_preserves (fun s => s.pending) (by simp) (by simp) (by simp) k b t ps s⟩
@[simp] theorem claimCompletion_keeps (k : Key) (b : BitVec 16) (m : BitVec 32) (t : Nat) (sent : Bool) :
    (claimCompletion k b m t sent s).phase = s.phase ∧ (claimCompletion k b m t sent s).clock = s.clock ∧
    (claimCompletion k b m t sent s).lcu = s.lcu ∧ (claimCompletion k b m t sent s).lfr = s.lfr ∧
    (claimCompletion k b m t sent s).cst = s.cst ∧ (claimCompletion k b m t sent s).xen.views = s.xen.views ∧
    (claimCompletion k b m t sent s).xen.openReq = s.xen.openReq ∧
    (claimCompletion k b m t sent s).xen.tallyDue = s.xen.tallyDue ∧
    (claimCompletion k b m t sent s).xen.tallyPtr = s.xen.tallyPtr ∧
    (claimCompletion k b m t sent s).xen.assemblies = s.xen.assemblies ∧
    (claimCompletion k b m t sent s).slc.lineState = s.slc.lineState ∧
    (claimCompletion k b m t sent s).slc.recessiveRun = s.slc.recessiveRun ∧
    (claimCompletion k b m t sent s).slc.rx = s.slc.rx ∧ (claimCompletion k b m t sent s).slc.role = s.slc.role ∧
    (claimCompletion k b m t sent s).slc.damageRun = s.slc.damageRun ∧
    (claimCompletion k b m t sent s).slc.silent = s.slc.silent ∧
    (claimCompletion k b m t sent s).slc.sle = s.slc.sle ∧
    (claimCompletion k b m t sent s).slc.sltRecessive = s.slc.sltRecessive ∧
    (claimCompletion k b m t sent s).ssv.own = s.ssv.own ∧ (claimCompletion k b m t sent s).ssv.boot = s.ssv.boot ∧
    (claimCompletion k b m t sent s).ssv.status = s.ssv.status ∧
    (claimCompletion k b m t sent s).ssv.version = s.ssv.version ∧
    (claimCompletion k b m t sent s).ssv.minuteDue = s.ssv.minuteDue ∧
    (claimCompletion k b m t sent s).ssv.rosterDue = s.ssv.rosterDue ∧
    (claimCompletion k b m t sent s).ssv.peers = s.ssv.peers ∧
    (claimCompletion k b m t sent s).ssv.bootBus = s.ssv.bootBus ∧
    (claimCompletion k b m t sent s).ssv.bootSteps = s.ssv.bootSteps ∧
    (claimCompletion k b m t sent s).pending = s.pending := by
  refine ⟨?_, ?_, ?_, ?_, ?_, ?_, ?_, ?_, ?_, ?_, ?_, ?_, ?_, ?_, ?_, ?_, ?_, ?_, ?_, ?_, ?_, ?_, ?_, ?_, ?_, ?_, ?_, ?_⟩ <;>
    (unfold claimCompletion; (repeat' first | split | dsimp only) <;> simp)
@[simp] theorem lineCompletion_keeps (k : Key) (j g f : Nat) (sent : Bool) :
    (lineCompletion k j g f sent s).phase = s.phase ∧ (lineCompletion k j g f sent s).clock = s.clock ∧
    (lineCompletion k j g f sent s).lcu = s.lcu ∧ (lineCompletion k j g f sent s).lfr = s.lfr ∧
    (lineCompletion k j g f sent s).cst.pages = s.cst.pages ∧ (lineCompletion k j g f sent s).cst.free = s.cst.free ∧
    (lineCompletion k j g f sent s).cst.poolReported = s.cst.poolReported ∧
    (lineCompletion k j g f sent s).cst.evictPtr = s.cst.evictPtr ∧
    (lineCompletion k j g f sent s).cst.ownSequence = s.cst.ownSequence ∧
    (lineCompletion k j g f sent s).xen.views = s.xen.views ∧
    (lineCompletion k j g f sent s).xen.openReq = s.xen.openReq ∧
    (lineCompletion k j g f sent s).xen.tallyDue = s.xen.tallyDue ∧
    (lineCompletion k j g f sent s).xen.tallyPtr = s.xen.tallyPtr ∧
    (lineCompletion k j g f sent s).xen.assemblies = s.xen.assemblies ∧
    (lineCompletion k j g f sent s).slc.lineState = s.slc.lineState ∧
    (lineCompletion k j g f sent s).slc.recessiveRun = s.slc.recessiveRun ∧
    (lineCompletion k j g f sent s).slc.rx = s.slc.rx ∧ (lineCompletion k j g f sent s).slc.role = s.slc.role ∧
    (lineCompletion k j g f sent s).slc.damageRun = s.slc.damageRun ∧
    (lineCompletion k j g f sent s).slc.silent = s.slc.silent ∧ (lineCompletion k j g f sent s).slc.sle = s.slc.sle ∧
    (lineCompletion k j g f sent s).slc.sltRecessive = s.slc.sltRecessive ∧
    (lineCompletion k j g f sent s).ssv = s.ssv ∧ (lineCompletion k j g f sent s).pending = s.pending := by
  refine ⟨?_, ?_, ?_, ?_, ?_, ?_, ?_, ?_, ?_, ?_, ?_, ?_, ?_, ?_, ?_, ?_, ?_, ?_, ?_, ?_, ?_, ?_, ?_, ?_⟩ <;>
    (unfold lineCompletion; split <;> (try split) <;> (try dsimp only) <;> (try split) <;> simp)
@[simp] theorem ownerCompletion_keeps (e : Entry) (t : Nat) (sent : Bool) :
    (ownerCompletion e t sent s).phase = s.phase ∧ (ownerCompletion e t sent s).clock = s.clock ∧
    (ownerCompletion e t sent s).lcu = s.lcu ∧ (ownerCompletion e t sent s).lfr = s.lfr ∧
    (ownerCompletion e t sent s).cst.pages = s.cst.pages ∧ (ownerCompletion e t sent s).cst.free = s.cst.free ∧
    (ownerCompletion e t sent s).cst.poolReported = s.cst.poolReported ∧
    (ownerCompletion e t sent s).cst.evictPtr = s.cst.evictPtr ∧
    (ownerCompletion e t sent s).cst.ownSequence = s.cst.ownSequence ∧
    (ownerCompletion e t sent s).xen.views = s.xen.views ∧
    (ownerCompletion e t sent s).xen.tallyDue = s.xen.tallyDue ∧
    (ownerCompletion e t sent s).xen.tallyPtr = s.xen.tallyPtr ∧
    (ownerCompletion e t sent s).xen.assemblies = s.xen.assemblies ∧
    (ownerCompletion e t sent s).slc.lineState = s.slc.lineState ∧
    (ownerCompletion e t sent s).slc.recessiveRun = s.slc.recessiveRun ∧
    (ownerCompletion e t sent s).slc.rx = s.slc.rx ∧ (ownerCompletion e t sent s).slc.role = s.slc.role ∧
    (ownerCompletion e t sent s).slc.damageRun = s.slc.damageRun ∧
    (ownerCompletion e t sent s).slc.silent = s.slc.silent ∧ (ownerCompletion e t sent s).slc.sle = s.slc.sle ∧
    (ownerCompletion e t sent s).slc.sltRecessive = s.slc.sltRecessive ∧
    (ownerCompletion e t sent s).ssv.own = s.ssv.own ∧ (ownerCompletion e t sent s).ssv.boot = s.ssv.boot ∧
    (ownerCompletion e t sent s).ssv.status = s.ssv.status ∧
    (ownerCompletion e t sent s).ssv.version = s.ssv.version ∧
    (ownerCompletion e t sent s).ssv.minuteDue = s.ssv.minuteDue ∧
    (ownerCompletion e t sent s).ssv.rosterDue = s.ssv.rosterDue ∧
    (ownerCompletion e t sent s).ssv.peers = s.ssv.peers ∧ (ownerCompletion e t sent s).ssv.bootBus = s.ssv.bootBus ∧
    (ownerCompletion e t sent s).ssv.bootSteps = s.ssv.bootSteps ∧
    (ownerCompletion e t sent s).pending = s.pending := by
  refine ⟨?_, ?_, ?_, ?_, ?_, ?_, ?_, ?_, ?_, ?_, ?_, ?_, ?_, ?_, ?_, ?_, ?_, ?_, ?_, ?_, ?_, ?_, ?_, ?_, ?_, ?_, ?_, ?_, ?_, ?_, ?_⟩ <;>
    (unfold ownerCompletion; split <;> simp)
@[simp] theorem abandonLine_keeps (l : Key × Nat) :
    (abandonLine l s).phase = s.phase ∧ (abandonLine l s).clock = s.clock ∧ (abandonLine l s).lcu = s.lcu ∧
    (abandonLine l s).lfr = s.lfr ∧ (abandonLine l s).cst = s.cst ∧ (abandonLine l s).xen.views = s.xen.views ∧
    (abandonLine l s).xen.openReq = s.xen.openReq ∧ (abandonLine l s).xen.tallyDue = s.xen.tallyDue ∧
    (abandonLine l s).xen.tallyPtr = s.xen.tallyPtr ∧ (abandonLine l s).xen.assemblies = s.xen.assemblies ∧
    (abandonLine l s).slc = s.slc ∧ (abandonLine l s).ssv = s.ssv ∧ (abandonLine l s).pending = s.pending := by
  refine ⟨?_, ?_, ?_, ?_, ?_, ?_, ?_, ?_, ?_, ?_, ?_, ?_, ?_⟩ <;>
    (rfl)
@[simp] theorem enterSilent_keeps :
    (enterSilent s).phase = s.phase ∧ (enterSilent s).clock = s.clock ∧ (enterSilent s).lcu = s.lcu ∧
    (enterSilent s).lfr = s.lfr ∧ (enterSilent s).cst = s.cst ∧ (enterSilent s).xen.views = s.xen.views ∧
    (enterSilent s).xen.openReq = s.xen.openReq ∧ (enterSilent s).xen.tallyDue = s.xen.tallyDue ∧
    (enterSilent s).xen.tallyPtr = s.xen.tallyPtr ∧ (enterSilent s).xen.assemblies = s.xen.assemblies ∧
    (enterSilent s).slc.lineState = s.slc.lineState ∧ (enterSilent s).slc.recessiveRun = s.slc.recessiveRun ∧
    (enterSilent s).slc.rx = s.slc.rx ∧ (enterSilent s).slc.role = s.slc.role ∧ (enterSilent s).slc.sle = s.slc.sle ∧
    (enterSilent s).slc.sltRecessive = s.slc.sltRecessive ∧ (enterSilent s).ssv.own = s.ssv.own ∧
    (enterSilent s).ssv.boot = s.ssv.boot ∧ (enterSilent s).ssv.status = s.ssv.status ∧
    (enterSilent s).ssv.version = s.ssv.version ∧ (enterSilent s).ssv.minuteDue = s.ssv.minuteDue ∧
    (enterSilent s).ssv.rosterDue = s.ssv.rosterDue ∧ (enterSilent s).ssv.peers = s.ssv.peers ∧
    (enterSilent s).ssv.bootBus = s.ssv.bootBus ∧
    (enterSilent s).ssv.bootSteps = s.ssv.bootSteps ∧ (enterSilent s).pending = s.pending := by
  exact ⟨
    (by simp only [enterSilent, raiseNote_keeps]; exact foldl_preserves (fun s => s.phase) (fun s l => abandonLine l s) (by simp) _ _),
    (by simp only [enterSilent, raiseNote_keeps]; exact foldl_preserves (fun s => s.clock) (fun s l => abandonLine l s) (by simp) _ _),
    (by simp only [enterSilent, raiseNote_keeps]; exact foldl_preserves (fun s => s.lcu) (fun s l => abandonLine l s) (by simp) _ _),
    (by simp only [enterSilent, raiseNote_keeps]; exact foldl_preserves (fun s => s.lfr) (fun s l => abandonLine l s) (by simp) _ _),
    (by simp only [enterSilent, raiseNote_keeps]; exact foldl_preserves (fun s => s.cst) (fun s l => abandonLine l s) (by simp) _ _),
    (by simp only [enterSilent, raiseNote_keeps]; exact foldl_preserves (fun s => s.xen.views) (fun s l => abandonLine l s) (by simp) _ _),
    (by simp only [enterSilent, raiseNote_keeps]; exact foldl_preserves (fun s => s.xen.openReq) (fun s l => abandonLine l s) (by simp) _ _),
    (by simp only [enterSilent, raiseNote_keeps]; exact foldl_preserves (fun s => s.xen.tallyDue) (fun s l => abandonLine l s) (by simp) _ _),
    (by simp only [enterSilent, raiseNote_keeps]; exact foldl_preserves (fun s => s.xen.tallyPtr) (fun s l => abandonLine l s) (by simp) _ _),
    (by simp only [enterSilent, raiseNote_keeps]; exact foldl_preserves (fun s => s.xen.assemblies) (fun s l => abandonLine l s) (by simp) _ _),
    (by simp only [enterSilent, raiseNote_keeps]; exact foldl_preserves (fun s => s.slc.lineState) (fun s l => abandonLine l s) (by simp) _ _),
    (by simp only [enterSilent, raiseNote_keeps]; exact foldl_preserves (fun s => s.slc.recessiveRun) (fun s l => abandonLine l s) (by simp) _ _),
    (by simp only [enterSilent, raiseNote_keeps]; exact foldl_preserves (fun s => s.slc.rx) (fun s l => abandonLine l s) (by simp) _ _),
    (by simp only [enterSilent, raiseNote_keeps]; exact foldl_preserves (fun s => s.slc.role) (fun s l => abandonLine l s) (by simp) _ _),
    (by simp only [enterSilent, raiseNote_keeps]; exact foldl_preserves (fun s => s.slc.sle) (fun s l => abandonLine l s) (by simp) _ _),
    (by simp only [enterSilent, raiseNote_keeps]; exact foldl_preserves (fun s => s.slc.sltRecessive) (fun s l => abandonLine l s) (by simp) _ _),
    (by simp only [enterSilent, raiseNote_keeps]; exact foldl_preserves (fun s => s.ssv.own) (fun s l => abandonLine l s) (by simp) _ _),
    (by simp only [enterSilent, raiseNote_keeps]; exact foldl_preserves (fun s => s.ssv.boot) (fun s l => abandonLine l s) (by simp) _ _),
    (by simp only [enterSilent, raiseNote_keeps]; exact foldl_preserves (fun s => s.ssv.status) (fun s l => abandonLine l s) (by simp) _ _),
    (by simp only [enterSilent, raiseNote_keeps]; exact foldl_preserves (fun s => s.ssv.version) (fun s l => abandonLine l s) (by simp) _ _),
    (by simp only [enterSilent, raiseNote_keeps]; exact foldl_preserves (fun s => s.ssv.minuteDue) (fun s l => abandonLine l s) (by simp) _ _),
    (by simp only [enterSilent, raiseNote_keeps]; exact foldl_preserves (fun s => s.ssv.rosterDue) (fun s l => abandonLine l s) (by simp) _ _),
    (by simp only [enterSilent, raiseNote_keeps]; exact foldl_preserves (fun s => s.ssv.peers) (fun s l => abandonLine l s) (by simp) _ _),
    (by simp only [enterSilent, raiseNote_keeps]; exact foldl_preserves (fun s => s.ssv.bootBus) (fun s l => abandonLine l s) (by simp) _ _),
    (by simp only [enterSilent, raiseNote_keeps]; exact foldl_preserves (fun s => s.ssv.bootSteps) (fun s l => abandonLine l s) (by simp) _ _),
    (by simp only [enterSilent, raiseNote_keeps]; exact foldl_preserves (fun s => s.pending) (fun s l => abandonLine l s) (by simp) _ _)⟩
@[simp] theorem lapseOwn_keeps (k : Key) (j : Nat) :
    (lapseOwn k j s).phase = s.phase ∧ (lapseOwn k j s).clock = s.clock ∧ (lapseOwn k j s).lcu = s.lcu ∧
    (lapseOwn k j s).lfr = s.lfr ∧ (lapseOwn k j s).cst = s.cst ∧ (lapseOwn k j s).xen.views = s.xen.views ∧
    (lapseOwn k j s).xen.openReq = s.xen.openReq ∧ (lapseOwn k j s).xen.tallyDue = s.xen.tallyDue ∧
    (lapseOwn k j s).xen.tallyPtr = s.xen.tallyPtr ∧ (lapseOwn k j s).xen.assemblies = s.xen.assemblies ∧
    (lapseOwn k j s).slc.lineState = s.slc.lineState ∧ (lapseOwn k j s).slc.recessiveRun = s.slc.recessiveRun ∧
    (lapseOwn k j s).slc.rx = s.slc.rx ∧ (lapseOwn k j s).slc.role = s.slc.role ∧
    (lapseOwn k j s).slc.damageRun = s.slc.damageRun ∧ (lapseOwn k j s).slc.silent = s.slc.silent ∧
    (lapseOwn k j s).slc.sle = s.slc.sle ∧ (lapseOwn k j s).slc.sltRecessive = s.slc.sltRecessive ∧
    (lapseOwn k j s).ssv.own = s.ssv.own ∧ (lapseOwn k j s).ssv.boot = s.ssv.boot ∧
    (lapseOwn k j s).ssv.status = s.ssv.status ∧ (lapseOwn k j s).ssv.version = s.ssv.version ∧
    (lapseOwn k j s).ssv.minuteDue = s.ssv.minuteDue ∧ (lapseOwn k j s).ssv.rosterDue = s.ssv.rosterDue ∧
    (lapseOwn k j s).ssv.peers = s.ssv.peers ∧ (lapseOwn k j s).ssv.bootBus = s.ssv.bootBus ∧
    (lapseOwn k j s).ssv.bootSteps = s.ssv.bootSteps ∧
    (lapseOwn k j s).pending = s.pending := by
  refine ⟨?_, ?_, ?_, ?_, ?_, ?_, ?_, ?_, ?_, ?_, ?_, ?_, ?_, ?_, ?_, ?_, ?_, ?_, ?_, ?_, ?_, ?_, ?_, ?_, ?_, ?_, ?_, ?_⟩ <;>
    (simp [lapseOwn])

/-! ## Reassembly (R150 to R153) -/

@[simp] theorem dropAssembly_keeps (r : Receiver) (k : Key) (j : Nat) :
    (dropAssembly r k j s).phase = s.phase ∧ (dropAssembly r k j s).clock = s.clock ∧
    (dropAssembly r k j s).lcu = s.lcu ∧ (dropAssembly r k j s).lfr = s.lfr ∧ (dropAssembly r k j s).cst = s.cst ∧
    (dropAssembly r k j s).xen.views = s.xen.views ∧ (dropAssembly r k j s).xen.openReq = s.xen.openReq ∧
    (dropAssembly r k j s).xen.tallyDue = s.xen.tallyDue ∧ (dropAssembly r k j s).xen.tallyPtr = s.xen.tallyPtr ∧
    (dropAssembly r k j s).xen.claims = s.xen.claims ∧ (dropAssembly r k j s).xen.build = s.xen.build ∧
    (dropAssembly r k j s).slc = s.slc ∧ (dropAssembly r k j s).ssv = s.ssv ∧
    (dropAssembly r k j s).pending = s.pending := by
  refine ⟨?_, ?_, ?_, ?_, ?_, ?_, ?_, ?_, ?_, ?_, ?_, ?_, ?_, ?_⟩ <;>
    (rfl)
@[simp] theorem countDiscard_keeps :
    (countDiscard s).phase = s.phase ∧ (countDiscard s).clock = s.clock ∧ (countDiscard s).lcu = s.lcu ∧
    (countDiscard s).lfr = s.lfr ∧ (countDiscard s).cst = s.cst ∧ (countDiscard s).xen = s.xen ∧
    (countDiscard s).slc = s.slc ∧ (countDiscard s).ssv.own = s.ssv.own ∧ (countDiscard s).ssv.boot = s.ssv.boot ∧
    (countDiscard s).ssv.status = s.ssv.status ∧ (countDiscard s).ssv.version = s.ssv.version ∧
    (countDiscard s).ssv.minuteDue = s.ssv.minuteDue ∧ (countDiscard s).ssv.rosterDue = s.ssv.rosterDue ∧
    (countDiscard s).ssv.peers = s.ssv.peers ∧ (countDiscard s).ssv.bootBus = s.ssv.bootBus ∧
    (countDiscard s).ssv.bootSteps = s.ssv.bootSteps ∧
    (countDiscard s).pending = s.pending := by
  refine ⟨?_, ?_, ?_, ?_, ?_, ?_, ?_, ?_, ?_, ?_, ?_, ?_, ?_, ?_, ?_, ?_, ?_⟩ <;>
    (rfl)
@[simp] theorem completeLine_keeps (i : SlotNo) (r : Receiver) (k : Key) (j q u : Nat) (b : List Byte) :
    (completeLine i r k j q u b s).phase = s.phase ∧ (completeLine i r k j q u b s).clock = s.clock ∧
    (completeLine i r k j q u b s).lcu = s.lcu ∧ (completeLine i r k j q u b s).lfr = s.lfr ∧
    (completeLine i r k j q u b s).cst.evictPtr = s.cst.evictPtr ∧
    (completeLine i r k j q u b s).cst.ownSequence = s.cst.ownSequence ∧
    (completeLine i r k j q u b s).xen.openReq = s.xen.openReq ∧
    (completeLine i r k j q u b s).xen.tallyDue = s.xen.tallyDue ∧
    (completeLine i r k j q u b s).xen.tallyPtr = s.xen.tallyPtr ∧
    (completeLine i r k j q u b s).xen.build = s.xen.build ∧
    (completeLine i r k j q u b s).slc.lineState = s.slc.lineState ∧
    (completeLine i r k j q u b s).slc.recessiveRun = s.slc.recessiveRun ∧
    (completeLine i r k j q u b s).slc.rx = s.slc.rx ∧ (completeLine i r k j q u b s).slc.role = s.slc.role ∧
    (completeLine i r k j q u b s).slc.damageRun = s.slc.damageRun ∧
    (completeLine i r k j q u b s).slc.silent = s.slc.silent ∧ (completeLine i r k j q u b s).slc.sle = s.slc.sle ∧
    (completeLine i r k j q u b s).slc.sltRecessive = s.slc.sltRecessive ∧
    (completeLine i r k j q u b s).ssv.own = s.ssv.own ∧ (completeLine i r k j q u b s).ssv.boot = s.ssv.boot ∧
    (completeLine i r k j q u b s).ssv.status = s.ssv.status ∧
    (completeLine i r k j q u b s).ssv.version = s.ssv.version ∧
    (completeLine i r k j q u b s).ssv.minuteDue = s.ssv.minuteDue ∧
    (completeLine i r k j q u b s).ssv.rosterDue = s.ssv.rosterDue ∧
    (completeLine i r k j q u b s).ssv.peers = s.ssv.peers ∧
    (completeLine i r k j q u b s).ssv.bootBus = s.ssv.bootBus ∧
    (completeLine i r k j q u b s).ssv.bootSteps = s.ssv.bootSteps ∧ (completeLine i r k j q u b s).pending = s.pending := by
  refine ⟨?_, ?_, ?_, ?_, ?_, ?_, ?_, ?_, ?_, ?_, ?_, ?_, ?_, ?_, ?_, ?_, ?_, ?_, ?_, ?_, ?_, ?_, ?_, ?_, ?_, ?_, ?_, ?_⟩ <;>
    (unfold completeLine; split <;> dsimp only <;> (try split) <;> (try split) <;> simp)
@[simp] theorem addAssembly_keeps (a : Assembly) :
    (addAssembly a s).phase = s.phase ∧ (addAssembly a s).clock = s.clock ∧ (addAssembly a s).lcu = s.lcu ∧
    (addAssembly a s).lfr = s.lfr ∧ (addAssembly a s).cst = s.cst ∧ (addAssembly a s).xen.views = s.xen.views ∧
    (addAssembly a s).xen.openReq = s.xen.openReq ∧ (addAssembly a s).xen.tallyDue = s.xen.tallyDue ∧
    (addAssembly a s).xen.tallyPtr = s.xen.tallyPtr ∧ (addAssembly a s).xen.claims = s.xen.claims ∧
    (addAssembly a s).xen.build = s.xen.build ∧ (addAssembly a s).slc = s.slc ∧
    (addAssembly a s).ssv.own = s.ssv.own ∧ (addAssembly a s).ssv.boot = s.ssv.boot ∧
    (addAssembly a s).ssv.status = s.ssv.status ∧ (addAssembly a s).ssv.version = s.ssv.version ∧
    (addAssembly a s).ssv.minuteDue = s.ssv.minuteDue ∧ (addAssembly a s).ssv.rosterDue = s.ssv.rosterDue ∧
    (addAssembly a s).ssv.peers = s.ssv.peers ∧ (addAssembly a s).ssv.bootBus = s.ssv.bootBus ∧
    (addAssembly a s).ssv.bootSteps = s.ssv.bootSteps ∧
    (addAssembly a s).pending = s.pending := by
  refine ⟨?_, ?_, ?_, ?_, ?_, ?_, ?_, ?_, ?_, ?_, ?_, ?_, ?_, ?_, ?_, ?_, ?_, ?_, ?_, ?_, ?_, ?_⟩ <;>
    (unfold addAssembly; (repeat' first | split | dsimp only) <;> simp)
@[simp] theorem firstFragment_keeps (i : SlotNo) (a : Assembly) :
    (firstFragment i a s).phase = s.phase ∧ (firstFragment i a s).clock = s.clock ∧
    (firstFragment i a s).lcu = s.lcu ∧ (firstFragment i a s).lfr = s.lfr ∧
    (firstFragment i a s).cst.evictPtr = s.cst.evictPtr ∧ (firstFragment i a s).cst.ownSequence = s.cst.ownSequence ∧
    (firstFragment i a s).xen.openReq = s.xen.openReq ∧ (firstFragment i a s).xen.tallyDue = s.xen.tallyDue ∧
    (firstFragment i a s).xen.tallyPtr = s.xen.tallyPtr ∧ (firstFragment i a s).xen.build = s.xen.build ∧
    (firstFragment i a s).slc.lineState = s.slc.lineState ∧
    (firstFragment i a s).slc.recessiveRun = s.slc.recessiveRun ∧ (firstFragment i a s).slc.rx = s.slc.rx ∧
    (firstFragment i a s).slc.role = s.slc.role ∧ (firstFragment i a s).slc.damageRun = s.slc.damageRun ∧
    (firstFragment i a s).slc.silent = s.slc.silent ∧ (firstFragment i a s).slc.sle = s.slc.sle ∧
    (firstFragment i a s).slc.sltRecessive = s.slc.sltRecessive ∧ (firstFragment i a s).ssv.own = s.ssv.own ∧
    (firstFragment i a s).ssv.boot = s.ssv.boot ∧ (firstFragment i a s).ssv.status = s.ssv.status ∧
    (firstFragment i a s).ssv.version = s.ssv.version ∧ (firstFragment i a s).ssv.minuteDue = s.ssv.minuteDue ∧
    (firstFragment i a s).ssv.rosterDue = s.ssv.rosterDue ∧ (firstFragment i a s).ssv.peers = s.ssv.peers ∧
    (firstFragment i a s).ssv.bootBus = s.ssv.bootBus ∧
    (firstFragment i a s).ssv.bootSteps = s.ssv.bootSteps ∧ (firstFragment i a s).pending = s.pending := by
  refine ⟨?_, ?_, ?_, ?_, ?_, ?_, ?_, ?_, ?_, ?_, ?_, ?_, ?_, ?_, ?_, ?_, ?_, ?_, ?_, ?_, ?_, ?_, ?_, ?_, ?_, ?_, ?_, ?_⟩ <;>
    (unfold firstFragment; (repeat' first | split | dsimp only) <;> simp)
@[simp] theorem laterFragment_keeps (i : SlotNo) (f : Assembly) (n : Nat) :
    (laterFragment i f n s).phase = s.phase ∧ (laterFragment i f n s).clock = s.clock ∧
    (laterFragment i f n s).lcu = s.lcu ∧ (laterFragment i f n s).lfr = s.lfr ∧
    (laterFragment i f n s).cst.evictPtr = s.cst.evictPtr ∧
    (laterFragment i f n s).cst.ownSequence = s.cst.ownSequence ∧
    (laterFragment i f n s).xen.openReq = s.xen.openReq ∧ (laterFragment i f n s).xen.tallyDue = s.xen.tallyDue ∧
    (laterFragment i f n s).xen.tallyPtr = s.xen.tallyPtr ∧ (laterFragment i f n s).xen.build = s.xen.build ∧
    (laterFragment i f n s).slc.lineState = s.slc.lineState ∧
    (laterFragment i f n s).slc.recessiveRun = s.slc.recessiveRun ∧ (laterFragment i f n s).slc.rx = s.slc.rx ∧
    (laterFragment i f n s).slc.role = s.slc.role ∧ (laterFragment i f n s).slc.damageRun = s.slc.damageRun ∧
    (laterFragment i f n s).slc.silent = s.slc.silent ∧ (laterFragment i f n s).slc.sle = s.slc.sle ∧
    (laterFragment i f n s).slc.sltRecessive = s.slc.sltRecessive ∧ (laterFragment i f n s).ssv.own = s.ssv.own ∧
    (laterFragment i f n s).ssv.boot = s.ssv.boot ∧ (laterFragment i f n s).ssv.status = s.ssv.status ∧
    (laterFragment i f n s).ssv.version = s.ssv.version ∧ (laterFragment i f n s).ssv.minuteDue = s.ssv.minuteDue ∧
    (laterFragment i f n s).ssv.rosterDue = s.ssv.rosterDue ∧ (laterFragment i f n s).ssv.peers = s.ssv.peers ∧
    (laterFragment i f n s).ssv.bootBus = s.ssv.bootBus ∧
    (laterFragment i f n s).ssv.bootSteps = s.ssv.bootSteps ∧ (laterFragment i f n s).pending = s.pending := by
  refine ⟨?_, ?_, ?_, ?_, ?_, ?_, ?_, ?_, ?_, ?_, ?_, ?_, ?_, ?_, ?_, ?_, ?_, ?_, ?_, ?_, ?_, ?_, ?_, ?_, ?_, ?_, ?_, ?_⟩ <;>
    (unfold laterFragment; (repeat' first | split | dsimp only) <;> simp)
@[simp] theorem judgeLine_keeps (st : Station) (t : Nat) (k : Key) (j : BitVec 16) (g f : BitVec 4) (q : Byte) (u : BitVec 16) (b : List Byte) :
    (judgeLine st t k j g f q u b s).phase = s.phase ∧ (judgeLine st t k j g f q u b s).clock = s.clock ∧
    (judgeLine st t k j g f q u b s).lcu = s.lcu ∧ (judgeLine st t k j g f q u b s).lfr = s.lfr ∧
    (judgeLine st t k j g f q u b s).cst.evictPtr = s.cst.evictPtr ∧
    (judgeLine st t k j g f q u b s).cst.ownSequence = s.cst.ownSequence ∧
    (judgeLine st t k j g f q u b s).xen.openReq = s.xen.openReq ∧
    (judgeLine st t k j g f q u b s).xen.tallyDue = s.xen.tallyDue ∧
    (judgeLine st t k j g f q u b s).xen.tallyPtr = s.xen.tallyPtr ∧
    (judgeLine st t k j g f q u b s).xen.build = s.xen.build ∧
    (judgeLine st t k j g f q u b s).slc.lineState = s.slc.lineState ∧
    (judgeLine st t k j g f q u b s).slc.recessiveRun = s.slc.recessiveRun ∧
    (judgeLine st t k j g f q u b s).slc.rx = s.slc.rx ∧ (judgeLine st t k j g f q u b s).slc.role = s.slc.role ∧
    (judgeLine st t k j g f q u b s).slc.damageRun = s.slc.damageRun ∧
    (judgeLine st t k j g f q u b s).slc.silent = s.slc.silent ∧
    (judgeLine st t k j g f q u b s).slc.sle = s.slc.sle ∧
    (judgeLine st t k j g f q u b s).slc.sltRecessive = s.slc.sltRecessive ∧
    (judgeLine st t k j g f q u b s).ssv.own = s.ssv.own ∧ (judgeLine st t k j g f q u b s).ssv.boot = s.ssv.boot ∧
    (judgeLine st t k j g f q u b s).ssv.status = s.ssv.status ∧
    (judgeLine st t k j g f q u b s).ssv.version = s.ssv.version ∧
    (judgeLine st t k j g f q u b s).ssv.minuteDue = s.ssv.minuteDue ∧
    (judgeLine st t k j g f q u b s).ssv.rosterDue = s.ssv.rosterDue ∧
    (judgeLine st t k j g f q u b s).ssv.peers = s.ssv.peers ∧
    (judgeLine st t k j g f q u b s).ssv.bootBus = s.ssv.bootBus ∧
    (judgeLine st t k j g f q u b s).ssv.bootSteps = s.ssv.bootSteps ∧
    (judgeLine st t k j g f q u b s).pending = s.pending := by
  refine ⟨?_, ?_, ?_, ?_, ?_, ?_, ?_, ?_, ?_, ?_, ?_, ?_, ?_, ?_, ?_, ?_, ?_, ?_, ?_, ?_, ?_, ?_, ?_, ?_, ?_, ?_, ?_, ?_⟩ <;>
    (unfold judgeLine; (repeat' first | split | dsimp only) <;> simp)

/-! ## Station services (R156 to R177) -/

@[simp] theorem markPresent_keeps (st : Station) (t : Nat) :
    (markPresent st t s).phase = s.phase ∧ (markPresent st t s).clock = s.clock ∧ (markPresent st t s).lcu = s.lcu ∧
    (markPresent st t s).lfr = s.lfr ∧ (markPresent st t s).cst.pages = s.cst.pages ∧
    (markPresent st t s).cst.free = s.cst.free ∧ (markPresent st t s).cst.poolReported = s.cst.poolReported ∧
    (markPresent st t s).cst.evictPtr = s.cst.evictPtr ∧ (markPresent st t s).cst.ownSequence = s.cst.ownSequence ∧
    (markPresent st t s).xen = s.xen ∧ (markPresent st t s).slc = s.slc ∧ (markPresent st t s).ssv.own = s.ssv.own ∧
    (markPresent st t s).ssv.boot = s.ssv.boot ∧ (markPresent st t s).ssv.status = s.ssv.status ∧
    (markPresent st t s).ssv.version = s.ssv.version ∧ (markPresent st t s).ssv.counters = s.ssv.counters ∧
    (markPresent st t s).ssv.minuteDue = s.ssv.minuteDue ∧ (markPresent st t s).ssv.rosterDue = s.ssv.rosterDue ∧
    (markPresent st t s).ssv.bootBus = s.ssv.bootBus ∧
    (markPresent st t s).ssv.bootSteps = s.ssv.bootSteps ∧ (markPresent st t s).pending = s.pending := by
  refine ⟨?_, ?_, ?_, ?_, ?_, ?_, ?_, ?_, ?_, ?_, ?_, ?_, ?_, ?_, ?_, ?_, ?_, ?_, ?_, ?_, ?_⟩ <;>
    (unfold markPresent; (repeat' first | split | dsimp only) <;> simp)
@[simp] theorem clearColumn_keeps (r : Receiver) :
    (clearColumn r s).phase = s.phase ∧ (clearColumn r s).clock = s.clock ∧ (clearColumn r s).lcu = s.lcu ∧
    (clearColumn r s).lfr = s.lfr ∧ (clearColumn r s).cst = s.cst ∧ (clearColumn r s).xen.openReq = s.xen.openReq ∧
    (clearColumn r s).xen.tallyDue = s.xen.tallyDue ∧ (clearColumn r s).xen.tallyPtr = s.xen.tallyPtr ∧
    (clearColumn r s).xen.claims = s.xen.claims ∧ (clearColumn r s).xen.build = s.xen.build ∧
    (clearColumn r s).xen.assemblies = s.xen.assemblies ∧ (clearColumn r s).slc = s.slc ∧
    (clearColumn r s).ssv = s.ssv ∧ (clearColumn r s).pending = s.pending := by
  refine ⟨?_, ?_, ?_, ?_, ?_, ?_, ?_, ?_, ?_, ?_, ?_, ?_, ?_, ?_⟩ <;>
    (rfl)
@[simp] theorem declareAbsent_keeps (st : Station) :
    (declareAbsent st s).phase = s.phase ∧ (declareAbsent st s).clock = s.clock ∧ (declareAbsent st s).lcu = s.lcu ∧
    (declareAbsent st s).lfr = s.lfr ∧ (declareAbsent st s).cst = s.cst ∧
    (declareAbsent st s).xen.openReq = s.xen.openReq ∧ (declareAbsent st s).xen.tallyDue = s.xen.tallyDue ∧
    (declareAbsent st s).xen.tallyPtr = s.xen.tallyPtr ∧ (declareAbsent st s).xen.claims = s.xen.claims ∧
    (declareAbsent st s).xen.build = s.xen.build ∧ (declareAbsent st s).xen.assemblies = s.xen.assemblies ∧
    (declareAbsent st s).slc.lineState = s.slc.lineState ∧
    (declareAbsent st s).slc.recessiveRun = s.slc.recessiveRun ∧ (declareAbsent st s).slc.rx = s.slc.rx ∧
    (declareAbsent st s).slc.role = s.slc.role ∧ (declareAbsent st s).slc.damageRun = s.slc.damageRun ∧
    (declareAbsent st s).slc.silent = s.slc.silent ∧ (declareAbsent st s).slc.sle = s.slc.sle ∧
    (declareAbsent st s).slc.sltRecessive = s.slc.sltRecessive ∧ (declareAbsent st s).ssv.own = s.ssv.own ∧
    (declareAbsent st s).ssv.boot = s.ssv.boot ∧ (declareAbsent st s).ssv.status = s.ssv.status ∧
    (declareAbsent st s).ssv.version = s.ssv.version ∧ (declareAbsent st s).ssv.minuteDue = s.ssv.minuteDue ∧
    (declareAbsent st s).ssv.rosterDue = s.ssv.rosterDue ∧ (declareAbsent st s).ssv.bootBus = s.ssv.bootBus ∧
    (declareAbsent st s).ssv.bootSteps = s.ssv.bootSteps ∧
    (declareAbsent st s).pending = s.pending := by
  refine ⟨?_, ?_, ?_, ?_, ?_, ?_, ?_, ?_, ?_, ?_, ?_, ?_, ?_, ?_, ?_, ?_, ?_, ?_, ?_, ?_, ?_, ?_, ?_, ?_, ?_, ?_, ?_, ?_⟩ <;>
    (unfold declareAbsent; dsimp only; split <;> simp)
@[simp] theorem judgeRoster_keeps (st : Station) (a b : Byte) :
    (judgeRoster st a b s).phase = s.phase ∧ (judgeRoster st a b s).clock = s.clock ∧
    (judgeRoster st a b s).lcu = s.lcu ∧ (judgeRoster st a b s).lfr = s.lfr ∧ (judgeRoster st a b s).cst = s.cst ∧
    (judgeRoster st a b s).xen = s.xen ∧ (judgeRoster st a b s).slc = s.slc ∧
    (judgeRoster st a b s).ssv.own = s.ssv.own ∧ (judgeRoster st a b s).ssv.boot = s.ssv.boot ∧
    (judgeRoster st a b s).ssv.status = s.ssv.status ∧ (judgeRoster st a b s).ssv.version = s.ssv.version ∧
    (judgeRoster st a b s).ssv.minuteDue = s.ssv.minuteDue ∧ (judgeRoster st a b s).ssv.rosterDue = s.ssv.rosterDue ∧
    (judgeRoster st a b s).ssv.bootBus = s.ssv.bootBus ∧
    (judgeRoster st a b s).ssv.bootSteps = s.ssv.bootSteps ∧ (judgeRoster st a b s).pending = s.pending := by
  refine ⟨?_, ?_, ?_, ?_, ?_, ?_, ?_, ?_, ?_, ?_, ?_, ?_, ?_, ?_, ?_, ?_⟩ <;>
    (unfold judgeRoster; (repeat' first | split | dsimp only) <;> simp)
@[simp] theorem queueRoster_keeps :
    (queueRoster s).phase = s.phase ∧ (queueRoster s).clock = s.clock ∧ (queueRoster s).lcu = s.lcu ∧
    (queueRoster s).lfr = s.lfr ∧ (queueRoster s).cst = s.cst ∧ (queueRoster s).xen = s.xen ∧
    (queueRoster s).slc.lineState = s.slc.lineState ∧ (queueRoster s).slc.recessiveRun = s.slc.recessiveRun ∧
    (queueRoster s).slc.rx = s.slc.rx ∧ (queueRoster s).slc.role = s.slc.role ∧
    (queueRoster s).slc.damageRun = s.slc.damageRun ∧ (queueRoster s).slc.silent = s.slc.silent ∧
    (queueRoster s).slc.sle = s.slc.sle ∧ (queueRoster s).slc.sltRecessive = s.slc.sltRecessive ∧
    (queueRoster s).ssv.own = s.ssv.own ∧ (queueRoster s).ssv.boot = s.ssv.boot ∧
    (queueRoster s).ssv.status = s.ssv.status ∧ (queueRoster s).ssv.version = s.ssv.version ∧
    (queueRoster s).ssv.minuteDue = s.ssv.minuteDue ∧ (queueRoster s).ssv.rosterDue = s.ssv.rosterDue ∧
    (queueRoster s).ssv.peers = s.ssv.peers ∧ (queueRoster s).ssv.bootBus = s.ssv.bootBus ∧
    (queueRoster s).ssv.bootSteps = s.ssv.bootSteps ∧
    (queueRoster s).pending = s.pending := by
  refine ⟨?_, ?_, ?_, ?_, ?_, ?_, ?_, ?_, ?_, ?_, ?_, ?_, ?_, ?_, ?_, ?_, ?_, ?_, ?_, ?_, ?_, ?_, ?_, ?_⟩ <;>
    (simp [queueRoster])
@[simp] theorem judgeAsk_keeps (st : Station) (a b : Byte) :
    (judgeAsk st a b s).phase = s.phase ∧ (judgeAsk st a b s).clock = s.clock ∧ (judgeAsk st a b s).lcu = s.lcu ∧
    (judgeAsk st a b s).lfr = s.lfr ∧ (judgeAsk st a b s).cst.pages = s.cst.pages ∧
    (judgeAsk st a b s).cst.free = s.cst.free ∧ (judgeAsk st a b s).cst.poolReported = s.cst.poolReported ∧
    (judgeAsk st a b s).cst.evictPtr = s.cst.evictPtr ∧ (judgeAsk st a b s).cst.ownSequence = s.cst.ownSequence ∧
    (judgeAsk st a b s).xen = s.xen ∧ (judgeAsk st a b s).slc.lineState = s.slc.lineState ∧
    (judgeAsk st a b s).slc.recessiveRun = s.slc.recessiveRun ∧ (judgeAsk st a b s).slc.rx = s.slc.rx ∧
    (judgeAsk st a b s).slc.role = s.slc.role ∧ (judgeAsk st a b s).slc.damageRun = s.slc.damageRun ∧
    (judgeAsk st a b s).slc.silent = s.slc.silent ∧ (judgeAsk st a b s).slc.sle = s.slc.sle ∧
    (judgeAsk st a b s).slc.sltRecessive = s.slc.sltRecessive ∧ (judgeAsk st a b s).ssv.own = s.ssv.own ∧
    (judgeAsk st a b s).ssv.boot = s.ssv.boot ∧ (judgeAsk st a b s).ssv.status = s.ssv.status ∧
    (judgeAsk st a b s).ssv.version = s.ssv.version ∧ (judgeAsk st a b s).ssv.minuteDue = s.ssv.minuteDue ∧
    (judgeAsk st a b s).ssv.rosterDue = s.ssv.rosterDue ∧ (judgeAsk st a b s).ssv.peers = s.ssv.peers ∧
    (judgeAsk st a b s).ssv.bootBus = s.ssv.bootBus ∧
    (judgeAsk st a b s).ssv.bootSteps = s.ssv.bootSteps ∧ (judgeAsk st a b s).pending = s.pending := by
  refine ⟨?_, ?_, ?_, ?_, ?_, ?_, ?_, ?_, ?_, ?_, ?_, ?_, ?_, ?_, ?_, ?_, ?_, ?_, ?_, ?_, ?_, ?_, ?_, ?_, ?_, ?_, ?_, ?_⟩ <;>
    (unfold judgeAsk; (repeat' first | split | dsimp only) <;> simp)
@[simp] theorem flushQueue_keeps :
    (flushQueue s).phase = s.phase ∧ (flushQueue s).clock = s.clock ∧ (flushQueue s).lcu = s.lcu ∧
    (flushQueue s).lfr = s.lfr ∧ (flushQueue s).cst = s.cst ∧ (flushQueue s).xen = s.xen ∧
    (flushQueue s).slc.lineState = s.slc.lineState ∧ (flushQueue s).slc.recessiveRun = s.slc.recessiveRun ∧
    (flushQueue s).slc.rx = s.slc.rx ∧ (flushQueue s).slc.role = s.slc.role ∧ (flushQueue s).slc.sle = s.slc.sle ∧
    (flushQueue s).slc.sltRecessive = s.slc.sltRecessive ∧ (flushQueue s).ssv = s.ssv ∧
    (flushQueue s).pending = s.pending := by
  refine ⟨?_, ?_, ?_, ?_, ?_, ?_, ?_, ?_, ?_, ?_, ?_, ?_, ?_, ?_⟩ <;>
    (rfl)
@[simp] theorem clearExchange_keeps :
    (clearExchange s).phase = s.phase ∧ (clearExchange s).clock = s.clock ∧ (clearExchange s).lcu = s.lcu ∧
    (clearExchange s).lfr = s.lfr ∧ (clearExchange s).cst = s.cst ∧ (clearExchange s).xen.tallyDue = s.xen.tallyDue ∧
    (clearExchange s).xen.tallyPtr = s.xen.tallyPtr ∧ (clearExchange s).slc = s.slc ∧ (clearExchange s).ssv = s.ssv ∧
    (clearExchange s).pending = s.pending := by
  refine ⟨?_, ?_, ?_, ?_, ?_, ?_, ?_, ?_, ?_, ?_⟩ <;>
    (rfl)
@[simp] theorem linkRestart_keeps (st : Station) (t : Nat) :
    (linkRestart st t s).phase = s.phase ∧ (linkRestart st t s).clock = s.clock ∧ (linkRestart st t s).lcu = s.lcu ∧
    (linkRestart st t s).lfr = s.lfr ∧ (linkRestart st t s).cst.pages = s.cst.pages ∧
    (linkRestart st t s).cst.free = s.cst.free ∧ (linkRestart st t s).cst.poolReported = s.cst.poolReported ∧
    (linkRestart st t s).cst.evictPtr = s.cst.evictPtr ∧ (linkRestart st t s).cst.ownSequence = s.cst.ownSequence ∧
    (linkRestart st t s).xen.tallyDue = s.xen.tallyDue ∧ (linkRestart st t s).xen.tallyPtr = s.xen.tallyPtr ∧
    (linkRestart st t s).slc.lineState = s.slc.lineState ∧
    (linkRestart st t s).slc.recessiveRun = s.slc.recessiveRun ∧ (linkRestart st t s).slc.rx = s.slc.rx ∧
    (linkRestart st t s).slc.role = s.slc.role ∧ (linkRestart st t s).slc.sle = s.slc.sle ∧
    (linkRestart st t s).slc.sltRecessive = s.slc.sltRecessive ∧ (linkRestart st t s).ssv.own = s.ssv.own ∧
    (linkRestart st t s).ssv.boot = s.ssv.boot ∧ (linkRestart st t s).ssv.status = s.ssv.status ∧
    (linkRestart st t s).ssv.version = s.ssv.version ∧ (linkRestart st t s).ssv.minuteDue = s.ssv.minuteDue ∧
    (linkRestart st t s).ssv.rosterDue = s.ssv.rosterDue ∧ (linkRestart st t s).ssv.bootBus = s.ssv.bootBus ∧
    (linkRestart st t s).ssv.bootSteps = s.ssv.bootSteps ∧
    (linkRestart st t s).pending = s.pending := by
  refine ⟨?_, ?_, ?_, ?_, ?_, ?_, ?_, ?_, ?_, ?_, ?_, ?_, ?_, ?_, ?_, ?_, ?_, ?_, ?_, ?_, ?_, ?_, ?_, ?_, ?_, ?_⟩ <;>
    (simp [linkRestart])
@[simp] theorem judgeRestart_keeps (st : Station) (t : Nat) (m : BitVec 16) :
    (judgeRestart st t m s).phase = s.phase ∧ (judgeRestart st t m s).clock = s.clock ∧
    (judgeRestart st t m s).lcu = s.lcu ∧ (judgeRestart st t m s).lfr = s.lfr ∧
    (judgeRestart st t m s).cst.pages = s.cst.pages ∧ (judgeRestart st t m s).cst.free = s.cst.free ∧
    (judgeRestart st t m s).cst.poolReported = s.cst.poolReported ∧
    (judgeRestart st t m s).cst.evictPtr = s.cst.evictPtr ∧
    (judgeRestart st t m s).cst.ownSequence = s.cst.ownSequence ∧
    (judgeRestart st t m s).xen.tallyDue = s.xen.tallyDue ∧ (judgeRestart st t m s).xen.tallyPtr = s.xen.tallyPtr ∧
    (judgeRestart st t m s).slc.lineState = s.slc.lineState ∧
    (judgeRestart st t m s).slc.recessiveRun = s.slc.recessiveRun ∧ (judgeRestart st t m s).slc.rx = s.slc.rx ∧
    (judgeRestart st t m s).slc.role = s.slc.role ∧ (judgeRestart st t m s).slc.sle = s.slc.sle ∧
    (judgeRestart st t m s).slc.sltRecessive = s.slc.sltRecessive ∧ (judgeRestart st t m s).ssv.own = s.ssv.own ∧
    (judgeRestart st t m s).ssv.boot = s.ssv.boot ∧ (judgeRestart st t m s).ssv.status = s.ssv.status ∧
    (judgeRestart st t m s).ssv.version = s.ssv.version ∧ (judgeRestart st t m s).ssv.minuteDue = s.ssv.minuteDue ∧
    (judgeRestart st t m s).ssv.rosterDue = s.ssv.rosterDue ∧ (judgeRestart st t m s).ssv.bootBus = s.ssv.bootBus ∧
    (judgeRestart st t m s).ssv.bootSteps = s.ssv.bootSteps ∧
    (judgeRestart st t m s).pending = s.pending := by
  refine ⟨?_, ?_, ?_, ?_, ?_, ?_, ?_, ?_, ?_, ?_, ?_, ?_, ?_, ?_, ?_, ?_, ?_, ?_, ?_, ?_, ?_, ?_, ?_, ?_, ?_, ?_⟩ <;>
    (unfold judgeRestart; split <;> simp)
@[simp] theorem minuteReport_keeps :
    (minuteReport s).phase = s.phase ∧ (minuteReport s).clock = s.clock ∧ (minuteReport s).lcu = s.lcu ∧
    (minuteReport s).lfr = s.lfr ∧ (minuteReport s).cst = s.cst ∧ (minuteReport s).xen = s.xen ∧
    (minuteReport s).slc.lineState = s.slc.lineState ∧ (minuteReport s).slc.recessiveRun = s.slc.recessiveRun ∧
    (minuteReport s).slc.rx = s.slc.rx ∧ (minuteReport s).slc.role = s.slc.role ∧
    (minuteReport s).slc.damageRun = s.slc.damageRun ∧ (minuteReport s).slc.silent = s.slc.silent ∧
    (minuteReport s).slc.sle = s.slc.sle ∧ (minuteReport s).slc.sltRecessive = s.slc.sltRecessive ∧
    (minuteReport s).ssv.own = s.ssv.own ∧ (minuteReport s).ssv.boot = s.ssv.boot ∧
    (minuteReport s).ssv.status = s.ssv.status ∧ (minuteReport s).ssv.version = s.ssv.version ∧
    (minuteReport s).ssv.minuteDue = s.ssv.minuteDue ∧ (minuteReport s).ssv.rosterDue = s.ssv.rosterDue ∧
    (minuteReport s).ssv.peers = s.ssv.peers ∧ (minuteReport s).ssv.bootBus = s.ssv.bootBus ∧
    (minuteReport s).ssv.bootSteps = s.ssv.bootSteps ∧
    (minuteReport s).pending = s.pending := by
  refine ⟨?_, ?_, ?_, ?_, ?_, ?_, ?_, ?_, ?_, ?_, ?_, ?_, ?_, ?_, ?_, ?_, ?_, ?_, ?_, ?_, ?_, ?_, ?_, ?_⟩ <;>
    (simp [minuteReport])

/-! ## Reception (R109 to R113) -/

@[simp] theorem frameEnded_keeps (n : Nat) :
    (frameEnded n s).phase = s.phase ∧ (frameEnded n s).clock = s.clock ∧ (frameEnded n s).lcu = s.lcu ∧
    (frameEnded n s).lfr = s.lfr ∧ (frameEnded n s).cst = s.cst ∧ (frameEnded n s).xen = s.xen ∧
    (frameEnded n s).slc.role = s.slc.role ∧ (frameEnded n s).slc.queue = s.slc.queue ∧
    (frameEnded n s).slc.damageRun = s.slc.damageRun ∧ (frameEnded n s).slc.silent = s.slc.silent ∧
    (frameEnded n s).slc.sle = s.slc.sle ∧ (frameEnded n s).slc.sltRecessive = s.slc.sltRecessive ∧
    (frameEnded n s).ssv = s.ssv ∧ (frameEnded n s).pending = s.pending := by
  refine ⟨?_, ?_, ?_, ?_, ?_, ?_, ?_, ?_, ?_, ?_, ?_, ?_, ?_, ?_⟩ <;>
    (rfl)
@[simp] theorem takeClash_keeps (p : BitVec 2) (k : BitVec 5) :
    (takeClash p k s).phase = s.phase ∧ (takeClash p k s).clock = s.clock ∧ (takeClash p k s).lcu = s.lcu ∧
    (takeClash p k s).lfr = s.lfr ∧ (takeClash p k s).cst = s.cst ∧ (takeClash p k s).xen = s.xen ∧
    (takeClash p k s).slc.lineState = s.slc.lineState ∧ (takeClash p k s).slc.recessiveRun = s.slc.recessiveRun ∧
    (takeClash p k s).slc.rx = s.slc.rx ∧ (takeClash p k s).slc.role = s.slc.role ∧
    (takeClash p k s).slc.damageRun = s.slc.damageRun ∧ (takeClash p k s).slc.silent = s.slc.silent ∧
    (takeClash p k s).slc.sle = s.slc.sle ∧ (takeClash p k s).slc.sltRecessive = s.slc.sltRecessive ∧
    (takeClash p k s).ssv.own = s.ssv.own ∧ (takeClash p k s).ssv.boot = s.ssv.boot ∧
    (takeClash p k s).ssv.status = s.ssv.status ∧ (takeClash p k s).ssv.version = s.ssv.version ∧
    (takeClash p k s).ssv.minuteDue = s.ssv.minuteDue ∧ (takeClash p k s).ssv.rosterDue = s.ssv.rosterDue ∧
    (takeClash p k s).ssv.peers = s.ssv.peers ∧ (takeClash p k s).ssv.bootBus = s.ssv.bootBus ∧
    (takeClash p k s).ssv.bootSteps = s.ssv.bootSteps ∧
    (takeClash p k s).pending = s.pending := by
  refine ⟨?_, ?_, ?_, ?_, ?_, ?_, ?_, ?_, ?_, ?_, ?_, ?_, ?_, ?_, ?_, ?_, ?_, ?_, ?_, ?_, ?_, ?_, ?_, ?_⟩ <;>
    (simp [takeClash])
@[simp] theorem takeMalformed_keeps (st : Station) :
    (takeMalformed st s).phase = s.phase ∧ (takeMalformed st s).clock = s.clock ∧ (takeMalformed st s).lcu = s.lcu ∧
    (takeMalformed st s).lfr = s.lfr ∧ (takeMalformed st s).cst.pages = s.cst.pages ∧
    (takeMalformed st s).cst.free = s.cst.free ∧ (takeMalformed st s).cst.poolReported = s.cst.poolReported ∧
    (takeMalformed st s).cst.evictPtr = s.cst.evictPtr ∧ (takeMalformed st s).cst.ownSequence = s.cst.ownSequence ∧
    (takeMalformed st s).xen = s.xen ∧ (takeMalformed st s).slc = s.slc ∧ (takeMalformed st s).ssv.own = s.ssv.own ∧
    (takeMalformed st s).ssv.boot = s.ssv.boot ∧ (takeMalformed st s).ssv.status = s.ssv.status ∧
    (takeMalformed st s).ssv.version = s.ssv.version ∧ (takeMalformed st s).ssv.minuteDue = s.ssv.minuteDue ∧
    (takeMalformed st s).ssv.rosterDue = s.ssv.rosterDue ∧ (takeMalformed st s).ssv.bootBus = s.ssv.bootBus ∧
    (takeMalformed st s).ssv.bootSteps = s.ssv.bootSteps ∧
    (takeMalformed st s).pending = s.pending := by
  refine ⟨?_, ?_, ?_, ?_, ?_, ?_, ?_, ?_, ?_, ?_, ?_, ?_, ?_, ?_, ?_, ?_, ?_, ?_, ?_, ?_⟩ <;>
    (simp [takeMalformed])
@[simp] theorem refreshOf_keeps (p : Payload) (t : Nat) :
    (refreshOf p t s).phase = s.phase ∧ (refreshOf p t s).clock = s.clock ∧ (refreshOf p t s).lcu = s.lcu ∧
    (refreshOf p t s).lfr = s.lfr ∧ (refreshOf p t s).cst.pages = s.cst.pages ∧
    (refreshOf p t s).cst.free = s.cst.free ∧ (refreshOf p t s).cst.poolReported = s.cst.poolReported ∧
    (refreshOf p t s).cst.evictPtr = s.cst.evictPtr ∧ (refreshOf p t s).cst.ownSequence = s.cst.ownSequence ∧
    (refreshOf p t s).xen = s.xen ∧ (refreshOf p t s).slc = s.slc ∧ (refreshOf p t s).ssv = s.ssv ∧
    (refreshOf p t s).pending = s.pending := by
  refine ⟨?_, ?_, ?_, ?_, ?_, ?_, ?_, ?_, ?_, ?_, ?_, ?_, ?_⟩ <;>
    (unfold refreshOf; split <;> simp)
@[simp] theorem dispatch_keeps (st : Station) (t : Nat) (p : Payload) :
    (dispatch st t p s).phase = s.phase ∧ (dispatch st t p s).clock = s.clock ∧ (dispatch st t p s).lcu = s.lcu ∧
    (dispatch st t p s).lfr = s.lfr ∧ (dispatch st t p s).cst.ownSequence = s.cst.ownSequence ∧
    (dispatch st t p s).xen.tallyDue = s.xen.tallyDue ∧ (dispatch st t p s).xen.tallyPtr = s.xen.tallyPtr ∧
    (dispatch st t p s).slc.lineState = s.slc.lineState ∧ (dispatch st t p s).slc.recessiveRun = s.slc.recessiveRun ∧
    (dispatch st t p s).slc.rx = s.slc.rx ∧ (dispatch st t p s).slc.role = s.slc.role ∧
    (dispatch st t p s).slc.sle = s.slc.sle ∧ (dispatch st t p s).slc.sltRecessive = s.slc.sltRecessive ∧
    (dispatch st t p s).ssv.own = s.ssv.own ∧ (dispatch st t p s).ssv.boot = s.ssv.boot ∧
    (dispatch st t p s).ssv.status = s.ssv.status ∧ (dispatch st t p s).ssv.version = s.ssv.version ∧
    (dispatch st t p s).ssv.minuteDue = s.ssv.minuteDue ∧ (dispatch st t p s).ssv.rosterDue = s.ssv.rosterDue ∧
    (dispatch st t p s).ssv.bootBus = s.ssv.bootBus ∧
    (dispatch st t p s).ssv.bootSteps = s.ssv.bootSteps ∧ (dispatch st t p s).pending = s.pending := by
  refine ⟨?_, ?_, ?_, ?_, ?_, ?_, ?_, ?_, ?_, ?_, ?_, ?_, ?_, ?_, ?_, ?_, ?_, ?_, ?_, ?_, ?_, ?_⟩ <;>
    (unfold dispatch; split <;> simp)
@[simp] theorem takeFrame_keeps (st : Station) (p : Payload) :
    (takeFrame st p s).phase = s.phase ∧ (takeFrame st p s).clock = s.clock ∧ (takeFrame st p s).lcu = s.lcu ∧
    (takeFrame st p s).lfr = s.lfr ∧ (takeFrame st p s).cst.ownSequence = s.cst.ownSequence ∧
    (takeFrame st p s).xen.tallyDue = s.xen.tallyDue ∧ (takeFrame st p s).xen.tallyPtr = s.xen.tallyPtr ∧
    (takeFrame st p s).slc.lineState = s.slc.lineState ∧ (takeFrame st p s).slc.recessiveRun = s.slc.recessiveRun ∧
    (takeFrame st p s).slc.rx = s.slc.rx ∧ (takeFrame st p s).slc.role = s.slc.role ∧
    (takeFrame st p s).slc.sle = s.slc.sle ∧ (takeFrame st p s).slc.sltRecessive = s.slc.sltRecessive ∧
    (takeFrame st p s).ssv.own = s.ssv.own ∧ (takeFrame st p s).ssv.boot = s.ssv.boot ∧
    (takeFrame st p s).ssv.status = s.ssv.status ∧ (takeFrame st p s).ssv.version = s.ssv.version ∧
    (takeFrame st p s).ssv.minuteDue = s.ssv.minuteDue ∧ (takeFrame st p s).ssv.rosterDue = s.ssv.rosterDue ∧
    (takeFrame st p s).ssv.bootBus = s.ssv.bootBus ∧
    (takeFrame st p s).ssv.bootSteps = s.ssv.bootSteps ∧ (takeFrame st p s).pending = s.pending := by
  refine ⟨?_, ?_, ?_, ?_, ?_, ?_, ?_, ?_, ?_, ?_, ?_, ?_, ?_, ?_, ?_, ?_, ?_, ?_, ?_, ?_, ?_, ?_⟩ <;>
    (simp [takeFrame])
@[simp] theorem takeFate_keeps (f : Fate) :
    (takeFate f s).phase = s.phase ∧ (takeFate f s).lcu = s.lcu ∧ (takeFate f s).lfr = s.lfr ∧
    (takeFate f s).cst.ownSequence = s.cst.ownSequence ∧ (takeFate f s).xen.tallyDue = s.xen.tallyDue ∧
    (takeFate f s).xen.tallyPtr = s.xen.tallyPtr ∧ (takeFate f s).slc.role = s.slc.role ∧
    (takeFate f s).slc.sle = s.slc.sle ∧ (takeFate f s).slc.sltRecessive = s.slc.sltRecessive ∧
    (takeFate f s).ssv.own = s.ssv.own ∧ (takeFate f s).ssv.boot = s.ssv.boot ∧
    (takeFate f s).ssv.status = s.ssv.status ∧ (takeFate f s).ssv.version = s.ssv.version ∧
    (takeFate f s).ssv.minuteDue = s.ssv.minuteDue ∧ (takeFate f s).ssv.rosterDue = s.ssv.rosterDue ∧
    (takeFate f s).ssv.bootBus = s.ssv.bootBus ∧ (takeFate f s).ssv.bootSteps = s.ssv.bootSteps ∧
    (takeFate f s).pending = s.pending ∧ (takeFate f s).clock = s.clock ∧
    (takeFate f s).slc.lineState = s.slc.lineState ∧ (takeFate f s).slc.recessiveRun = s.slc.recessiveRun ∧
    (takeFate f s).slc.rx = s.slc.rx := by
  refine ⟨?_, ?_, ?_, ?_, ?_, ?_, ?_, ?_, ?_, ?_, ?_, ?_, ?_, ?_, ?_, ?_, ?_, ?_, ?_, ?_, ?_, ?_⟩ <;>
    (unfold takeFate; split <;> simp)
@[simp] theorem frameEvent_keeps (n : Fate → Bool) (t : Nat) (bits : List Bool) :
    (frameEvent n t bits s).phase = s.phase ∧ (frameEvent n t bits s).lcu = s.lcu ∧
    (frameEvent n t bits s).lfr = s.lfr ∧ (frameEvent n t bits s).cst.ownSequence = s.cst.ownSequence ∧
    (frameEvent n t bits s).xen.tallyDue = s.xen.tallyDue ∧ (frameEvent n t bits s).xen.tallyPtr = s.xen.tallyPtr ∧
    (frameEvent n t bits s).slc.role = s.slc.role ∧ (frameEvent n t bits s).slc.sle = s.slc.sle ∧
    (frameEvent n t bits s).slc.sltRecessive = s.slc.sltRecessive ∧ (frameEvent n t bits s).ssv.own = s.ssv.own ∧
    (frameEvent n t bits s).ssv.boot = s.ssv.boot ∧ (frameEvent n t bits s).ssv.status = s.ssv.status ∧
    (frameEvent n t bits s).ssv.version = s.ssv.version ∧ (frameEvent n t bits s).ssv.minuteDue = s.ssv.minuteDue ∧
    (frameEvent n t bits s).ssv.rosterDue = s.ssv.rosterDue ∧ (frameEvent n t bits s).ssv.bootBus = s.ssv.bootBus ∧
    (frameEvent n t bits s).ssv.bootSteps = s.ssv.bootSteps ∧ (frameEvent n t bits s).pending = s.pending := by
  refine ⟨?_, ?_, ?_, ?_, ?_, ?_, ?_, ?_, ?_, ?_, ?_, ?_, ?_, ?_, ?_, ?_, ?_, ?_⟩ <;>
    (unfold frameEvent; dsimp only; split <;> (try split) <;> (try split) <;> simp)
@[simp] theorem hearFrame_keeps (t : Nat) (k : Kind) (st : Station) (tail : List Bool) :
    (hearFrame t k st tail s).phase = s.phase ∧ (hearFrame t k st tail s).lcu = s.lcu ∧
    (hearFrame t k st tail s).lfr = s.lfr ∧ (hearFrame t k st tail s).cst.ownSequence = s.cst.ownSequence ∧
    (hearFrame t k st tail s).xen.tallyDue = s.xen.tallyDue ∧
    (hearFrame t k st tail s).xen.tallyPtr = s.xen.tallyPtr ∧ (hearFrame t k st tail s).slc.role = s.slc.role ∧
    (hearFrame t k st tail s).slc.sle = s.slc.sle ∧ (hearFrame t k st tail s).slc.sltRecessive = s.slc.sltRecessive ∧
    (hearFrame t k st tail s).ssv.own = s.ssv.own ∧ (hearFrame t k st tail s).ssv.boot = s.ssv.boot ∧
    (hearFrame t k st tail s).ssv.status = s.ssv.status ∧ (hearFrame t k st tail s).ssv.version = s.ssv.version ∧
    (hearFrame t k st tail s).ssv.minuteDue = s.ssv.minuteDue ∧
    (hearFrame t k st tail s).ssv.rosterDue = s.ssv.rosterDue ∧
    (hearFrame t k st tail s).ssv.bootBus = s.ssv.bootBus ∧
    (hearFrame t k st tail s).ssv.bootSteps = s.ssv.bootSteps ∧ (hearFrame t k st tail s).pending = s.pending := by
  refine ⟨?_, ?_, ?_, ?_, ?_, ?_, ?_, ?_, ?_, ?_, ?_, ?_, ?_, ?_, ?_, ?_, ?_, ?_⟩ <;>
    (simp [hearFrame])

end Sys2Proof.Machine
end

