-- ==== Sys2Proof/Laws/Maps.lean ====
section
/-! SUPPORT. The laws of the maps kept as rising lists: reading back what is set or erased, and the canonical forms of the page pool and of a view's column. -/

namespace Sys2Proof.Machine

variable {α : Type}

theorem mapGet_mapSet_same (i : Nat) (a : α) (m : List (Nat × α)) : mapGet (mapSet i a m) i = some a := by
  induction m with
  | nil => simp [mapSet, mapGet]
  | cons e rest ih =>
    obtain ⟨k, b⟩ := e
    unfold mapSet
    split
    · simp [mapGet]
    · split
      · simp [mapGet]
      · next h => simp [mapGet, Ne.symm h, ih]

theorem mapGet_mapSet_other {i j : Nat} (h : j ≠ i) (a : α) (m : List (Nat × α)) :
    mapGet (mapSet i a m) j = mapGet m j := by
  induction m with
  | nil => simp [mapSet, mapGet, Ne.symm h]
  | cons e rest ih =>
    obtain ⟨k, b⟩ := e
    unfold mapSet
    split
    · simp [mapGet, Ne.symm h]
    · split
      · next hk => subst hk; simp [mapGet, Ne.symm h]
      · simp [mapGet, ih]

theorem mapGet_mapErase_other {i j : Nat} (h : j ≠ i) (m : List (Nat × α)) : mapGet (mapErase i m) j = mapGet m j := by
  induction m with
  | nil => rfl
  | cons e rest ih =>
    obtain ⟨k, b⟩ := e
    unfold mapErase
    split
    · next hk => subst hk; simp [mapGet, Ne.symm h]
    · simp [mapGet, ih]

/-- An index below every key of a map is not listed. -/
theorem mapGet_eq_none_of_lt {i : Nat} (m : List (Nat × α)) (h : ∀ e ∈ m, i < e.1) : mapGet m i = none := by
  induction m with
  | nil => rfl
  | cons e rest ih =>
    obtain ⟨k, b⟩ := e
    have hk : i < k := h (k, b) (by simp)
    rw [mapGet, if_neg (by omega)]
    exact ih (fun e he => h e (by simp [he]))

theorem rising_cons {k : Nat} {b : α} {rest : List (Nat × α)} :
    rising ((k, b) :: rest) ↔ (∀ e ∈ rest, k < e.1) ∧ rising rest := by
  unfold rising
  simp only [List.map_cons, List.pairwise_cons, List.forall_mem_map]

theorem mapGet_mapErase_same (i : Nat) (m : List (Nat × α)) (h : rising m) : mapGet (mapErase i m) i = none := by
  induction m with
  | nil => rfl
  | cons e rest ih =>
    obtain ⟨k, b⟩ := e
    rw [rising_cons] at h
    unfold mapErase
    split
    · next hk => subst hk; exact mapGet_eq_none_of_lt rest h.1
    · next hk => rw [mapGet, if_neg (Ne.symm hk)]; exact ih h.2

/-- What a map lists after a set: the new entry, or an old one of another key. -/
theorem mem_mapSet {i : Nat} {a : α} {m : List (Nat × α)} {e : Nat × α} (h : e ∈ mapSet i a m) : e = (i, a) ∨ e ∈ m := by
  induction m with
  | nil => simpa [mapSet] using h
  | cons d rest ih =>
    obtain ⟨k, b⟩ := d
    unfold mapSet at h
    split at h
    · simp only [List.mem_cons] at h ⊢; tauto
    · split at h
      · simp only [List.mem_cons] at h ⊢; tauto
      · simp only [List.mem_cons] at h ⊢
        rcases h with h | h
        · tauto
        · rcases ih h with h | h <;> tauto

theorem mem_mapErase {i : Nat} {m : List (Nat × α)} {e : Nat × α} (h : e ∈ mapErase i m) : e ∈ m := by
  induction m with
  | nil => simp [mapErase] at h
  | cons d rest ih =>
    obtain ⟨k, b⟩ := d
    unfold mapErase at h
    split at h
    · exact List.mem_cons_of_mem _ h
    · simp only [List.mem_cons] at h ⊢
      rcases h with h | h
      · exact Or.inl h
      · exact Or.inr (ih h)

theorem rising_mapSet (i : Nat) (a : α) (m : List (Nat × α)) (h : rising m) : rising (mapSet i a m) := by
  induction m with
  | nil => simp [mapSet, rising]
  | cons d rest ih =>
    obtain ⟨k, b⟩ := d
    unfold mapSet
    split
    · next hik =>
      rw [rising_cons]
      refine ⟨?_, h⟩
      rw [rising_cons] at h
      intro e he
      rcases List.mem_cons.1 he with rfl | he
      · exact hik
      · exact lt_trans hik (h.1 e he)
    · split
      · next hk => subst hk; rw [rising_cons] at h ⊢; exact h
      · next hlt hne =>
        rw [rising_cons] at h ⊢
        refine ⟨?_, ih h.2⟩
        intro e he
        rcases mem_mapSet he with rfl | he
        · show k < i; omega
        · exact h.1 e he

theorem rising_mapErase (i : Nat) (m : List (Nat × α)) (h : rising m) : rising (mapErase i m) := by
  induction m with
  | nil => exact h
  | cons d rest ih =>
    obtain ⟨k, b⟩ := d
    rw [rising_cons] at h
    unfold mapErase
    split
    · exact h.2
    · rw [rising_cons]; exact ⟨fun e he => h.1 e (mem_mapErase he), ih h.2⟩

/-! ## The canonical forms -/

/-- Every write to the page pool keeps its canonical form (R53). -/
theorem write_keeps_wf (m : List (Nat × Pixels)) (page : Nat) (p : Pixels) (h : Memory.wf m) :
    Memory.wf (Memory.write m page p) := by
  unfold Memory.write
  split
  · exact ⟨rising_mapErase page m h.1, fun c hc => h.2 c (mem_mapErase hc)⟩
  · next hp =>
    refine ⟨rising_mapSet page p m h.1, fun c hc => ?_⟩
    rcases mem_mapSet hc with rfl | hc
    · exact hp
    · exact h.2 c hc

/-- The page pool after reset has the canonical form: it lists nothing. -/
theorem reset_pool_wf : Memory.wf State.reset.cst.pages := by
  simp [State.reset, Cst.reset, Memory.wf, rising]

/-- Writing a code keeps a column's canonical form (R117). -/
theorem writeCode_keeps_wf (c : Column) (index code : Nat) (h : columnWf c) : columnWf (writeCode c index code) := by
  unfold writeCode
  split
  · exact ⟨rising_mapErase index c h.1, fun e he => h.2 e (mem_mapErase he)⟩
  · next hc =>
    refine ⟨rising_mapSet index code c h.1, fun e he => ?_⟩
    rcases mem_mapSet he with rfl | he
    · exact hc
    · exact h.2 e he

/-- A code written is read back, and no other line's code moves (R118). -/
theorem codeAt_writeCode (c : Column) (index code j : Nat) (h : rising c) :
    codeAt (writeCode c index code) j = if j = index then code else codeAt c j := by
  unfold codeAt writeCode
  by_cases hj : j = index
  · subst hj
    rw [if_pos rfl]
    split
    · next h0 => rw [mapGet_mapErase_same _ _ h, h0]; rfl
    · rw [mapGet_mapSet_same]; rfl
  · rw [if_neg hj]
    split
    · rw [mapGet_mapErase_other hj]
    · rw [mapGet_mapSet_other hj]

end Sys2Proof.Machine
end

