-- ==== Sys2Proof/Laws/Wire.lean ====
section
/-! SUPPORT. What the receiver makes of a frame put on the wire (R99, R100), and what a frame event comes to. -/

namespace Sys2Proof.Machine

/-! ## Reading bytes and fields back -/

@[simp] theorem fieldBits_length {n : Nat} (w : BitVec n) : (fieldBits w).length = n := by simp [fieldBits]

theorem byte_reads_back : ∀ b : Byte, BitVec.ofNat 8 (bitsValue (fieldBits b)) = b := by decide +kernel

theorem priority_reads_back : ∀ p : BitVec 2, BitVec.ofNat 2 (bitsValue (fieldBits p)) = p := by decide +kernel

theorem sender_reads_back : ∀ s : Station, Fin.ofNat 16 (bitsValue (fieldBits (BitVec.ofNat 4 s.val))) = s := by
  decide +kernel

theorem kind_reads_back : ∀ k : BitVec 5, BitVec.ofNat 5 (bitsValue (fieldBits k)) = k := by decide +kernel

/-- The bits of two fields, one after the other. -/
theorem fieldBits_append {m n : Nat} (a : BitVec m) (b : BitVec n) : fieldBits (a ++ b) = fieldBits a ++ fieldBits b := by
  apply List.ext_getElem (by simp)
  intro i h1 h2
  simp only [fieldBits, List.getElem_map, List.getElem_range, List.getElem_append, List.length_map, List.length_range]
  simp only [fieldBits_length] at h1
  split
  · next h => rw [BitVec.getMsbD_append]; simp [h]
  · next h => rw [BitVec.getMsbD_append]; simp [h]

/-- Bytes put on the wire are read back, and the bits behind them are left (R99). -/
theorem readBytes_wire (bytes : List Byte) (rest : List Bool) :
    readBytes bytes.length (bytes.flatMap wireByte ++ rest) = .got bytes rest := by
  induction bytes with
  | nil => rfl
  | cons b bs ih =>
    have h : (b :: bs).flatMap wireByte ++ rest = false :: (fieldBits b ++ (bs.flatMap wireByte ++ rest)) := by
      simp [wireByte]
    rw [h, List.length_cons, readBytes]
    have hlen : ¬ (fieldBits b ++ (bs.flatMap wireByte ++ rest)).length < 8 := by simp
    rw [if_neg hlen, List.drop_left' (fieldBits_length b), List.take_left' (fieldBits_length b), ih, byte_reads_back]

/-- Bytes taken take nine bits each (R99). -/
theorem readBytes_length : ∀ (n : Nat) (bits : List Bool) (bytes : List Byte) (rest : List Bool),
    readBytes n bits = .got bytes rest → bytes.length = n ∧ bits.length = 9 * n + rest.length := by
  intro n
  induction n with
  | zero => intro bits bytes rest h; simp [readBytes] at h; obtain ⟨rfl, rfl⟩ := h; simp
  | succ n ih =>
    intro bits bytes rest h
    match bits with
    | [] => simp [readBytes] at h
    | true :: more => simp only [readBytes] at h; split at h <;> simp at h
    | false :: more =>
      simp only [readBytes] at h
      split at h
      · simp at h
      · next hl =>
        generalize hr : readBytes n (more.drop 8) = r at h
        cases r with
        | got bs more' =>
          simp only [BytesRead.got.injEq] at h
          obtain ⟨rfl, rfl⟩ := h
          have := ih _ _ _ hr
          simp only [List.length_drop] at this
          simp only [List.length_cons]
          omega
        | unread => simp at h
        | broken => simp at h

/-- Seven recessive end bits leave the frame as it was judged; bits that leave it so are seven (R99). -/
theorem readEnd_intact (pr : BitVec 2) (sd : Station) (kd : BitVec 5) (v : Verdict) (data : List Byte) :
    ∀ (n : Nat) (bits : List Bool), readEnd v n bits = .intact pr sd kd data → bits.length = n ∧ v = .intact pr sd kd data := by
  intro n
  induction n with
  | zero => intro bits h; cases bits <;> simp_all [readEnd]
  | succ n ih =>
    intro bits h
    match bits with
    | [] => simp [readEnd] at h
    | true :: rest => have := ih rest (by simpa [readEnd] using h); simpa using this
    | [false] => simp [readEnd] at h
    | false :: _ :: _ => simp [readEnd] at h

/-! ## The judgement -/

/-- A frame put on the wire is read intact, with the fields and the data it was built of (R99, R100). -/
theorem judgeBits_wire (pr : BitVec 2) (sender : Station) (kind : BitVec 5) (data : List Byte) (h : data.length ≤ 255) :
    judgeBits (fieldBits (arbitrationField pr sender kind) ++ tailBits (arbitrationField pr sender kind) data) =
      .intact pr sender kind data := by
  have hn : (BitVec.ofNat 8 data.length).toNat = data.length := by rw [BitVec.toNat_ofNat]; omega
  have hf : fieldBits (arbitrationField pr sender kind) =
      fieldBits pr ++ (fieldBits (BitVec.ofNat 4 sender.val) ++ fieldBits kind) := by
    simp only [arbitrationField, fieldBits_append, List.append_assoc]
  have htail : tailBits (arbitrationField pr sender kind) data =
      [BitVec.ofNat 8 data.length].flatMap wireByte ++
        ((data ++ bytes16 (checkSequence (arbitrationField pr sender kind) data)).flatMap wireByte ++ endBits) := by
    simp [tailBits, packedBits]
  have hc : (data ++ bytes16 (checkSequence (arbitrationField pr sender kind) data)).length =
      (BitVec.ofNat 8 data.length).toNat + 2 := by simp [bytes16, hn]
  unfold judgeBits
  rw [if_neg (by simp), List.drop_left' (fieldBits_length _), List.take_left' (fieldBits_length _), htail]
  have h1 := readBytes_wire [BitVec.ofNat 8 data.length]
    ((data ++ bytes16 (checkSequence (arbitrationField pr sender kind) data)).flatMap wireByte ++ endBits)
  rw [List.length_singleton] at h1
  rw [h1]
  dsimp only
  rw [← hc, readBytes_wire, hn]
  dsimp only
  rw [List.drop_left' rfl, List.take_left' rfl]
  unfold checkSequence
  rw [if_pos rfl]
  simp only [endBits, List.replicate, readEnd, readFields]
  rw [hf, List.take_left' (fieldBits_length _), List.drop_left' (fieldBits_length _), List.take_left' (fieldBits_length _),
    ← List.append_assoc, List.drop_left' (by simp), priority_reads_back, sender_reads_back, kind_reads_back]

/-- The bits of an intact frame of n data bytes are 9n + 45 behind the start bit, and n is at most 255 (R99). -/
theorem judgeBits_length {bits : List Bool} {pr : BitVec 2} {sender : Station} {kind : BitVec 5} {data : List Byte}
    (h : judgeBits bits = .intact pr sender kind data) : bits.length = 9 * data.length + 45 ∧ data.length ≤ 255 := by
  unfold judgeBits at h
  split at h
  · simp at h
  · next hl =>
    split at h
    · simp at h
    · next n rest hr =>
      have h1 := readBytes_length _ _ _ _ hr
      split at h
      · simp at h
      · next bytes rest' hr' =>
        have h2 := readBytes_length _ _ _ _ hr'
        have h3 := n.isLt
        dsimp only at h
        split at h
        · have h4 := readEnd_intact _ _ _ _ _ _ _ h
          simp only [readFields, Verdict.intact.injEq] at h4
          have h5 : data.length = n.toNat := by rw [← h4.2.2.2.2]; simp; omega
          simp only [List.length_drop] at h1
          omega
        · split at h <;> simp at h
      · simp at h
    · simp at h

/-! ## Frame events -/

/-- Every kind table entry names its own code (R110). -/
@[simp] theorem kindOfCode_kindCode (k : Kind) : kindOfCode (kindCode k) = some k := by cases k <;> rfl

/-- Every length the kind table allows is at most 248 (R110). -/
theorem lengthAllowed_le {k : Kind} {n : Nat} (h : lengthAllowed k n = true) : n ≤ 248 := by
  cases k <;> simp [lengthAllowed] at h <;> omega

/-- A frame event at a frame that is heard does what its fate says, when it is the fate the command names (R109). -/
theorem frameEvent_heard (named : Fate → Bool) (t : Nat) (bits : List Bool) (f : Fate) (s : State) (h : hearsFrame s = true)
    (hf : fateOf s.ssv.own bits = some f) :
    frameEvent named t bits s = if named f then takeFate f (frameEnded (recessiveAfter bits) (advance t s)) else advance t s := by
  have h' : hearsFrame (advance t s) = true := by simpa [hearsFrame, readsLine] using h
  simp [frameEvent, h', hf]

/-- A frame event at a frame that is not heard only lets station time move on (R98, R109). -/
theorem frameEvent_unheard (named : Fate → Bool) (t : Nat) (bits : List Bool) (s : State) (h : hearsFrame s = false) :
    frameEvent named t bits s = advance t s := by
  have h' : hearsFrame (advance t s) = false := by simpa [hearsFrame, readsLine] using h
  simp [frameEvent, h']

/-- A frame event at a frame whose fate is not of the sort the command names only lets station time move on (R109). -/
theorem frameEvent_unnamed (named : Fate → Bool) (t : Nat) (bits : List Bool) (s : State)
    (h : ∀ f, fateOf s.ssv.own bits = some f → named f = false) : frameEvent named t bits s = advance t s := by
  cases hf : fateOf s.ssv.own bits with
  | none => simp [frameEvent, hf]
  | some f => simp [frameEvent, hf, h f hf]

/-- A well-formed frame of a foreign sender, read back whole, is dispatched (R110, R111). -/
theorem fateOf_frame (own : Receiver) (sender : Station) (p : Payload) (hs : sender ≠ stationOf own)
    (hl : lengthAllowed p.kind p.bytes.length = true) (hr : readData p.kind p.bytes = some p) :
    fateOf own (fieldBits (kindField p.kind sender) ++ frameTail sender p) = some (.heard sender p) := by
  have h255 : p.bytes.length ≤ 255 := le_trans (lengthAllowed_le hl) (by decide)
  unfold fateOf frameTail kindField
  rw [judgeBits_wire _ _ _ _ h255]
  simp [intactFate, hs, frameFits, hl, hr]

/-- What the frame of a heard payload comes to: the marks of every well-formed frame, then the dispatch (R111). -/
theorem hearFrame_frame (t : Nat) (sender : Station) (p : Payload) (s : State) (h : hears s sender)
    (hl : lengthAllowed p.kind p.bytes.length = true) (hr : readData p.kind p.bytes = some p) :
    hearFrame t p.kind sender (frameTail sender p) s = dispatch sender (stampAt t s) p (heardBy t sender p s) := by
  obtain ⟨h1, h2, h3, h4⟩ := h
  have hh : hearsFrame s = true := by simp [hearsFrame, readsLine, h1, h2, h3]
  unfold hearFrame
  rw [frameEvent_heard _ _ _ _ _ hh (fateOf_frame _ _ _ h4 hl hr)]
  simp [Fate.isHeard, takeFate, takeFrame, heardBy, State.now, stampAt, advance_clock _ _ h1]

end Sys2Proof.Machine
end

