-- ==== Sys2Proof/Laws/PerInstr.lean ====
section
/-! SUPPORT. Statements made command by command, about the command as it is sent: the bits it carries of an intact frame have the length that a length byte gives them (R99). -/

namespace Sys2Proof

/-- The bits of an intact frame behind its arbitration field that a command carries, none where it carries no such frame. -/
def Instr.carried : Instr → Option (List Bool)
  | .reset _ => none
  | .endOfBoot _ => none
  | .levelWord _ _ => none
  | .wordDiscard _ => none
  | .gainDownEnd _ => none
  | .phasingTimeout _ => none
  | .lineIdle _ => none
  | .frameStart _ => none
  | .arbitrationLost _ _ => none
  | .arbitrationWon _ => none
  | .sendCompletion _ _ => none
  | .silentEnd _ => none
  | .frameDamaged _ _ => none
  | .frameMalformed _ _ _ _ tail => some tail
  | .clash _ _ _ tail => some tail
  | .openHeard _ _ tail => some tail
  | .closeHeard _ _ tail => some tail
  | .dropHeard _ _ tail => some tail
  | .tallyHeard _ _ tail => some tail
  | .wantHeard _ _ tail => some tail
  | .claimHeard _ _ tail => some tail
  | .lineHeard _ _ tail => some tail
  | .restartHeard _ _ tail => some tail
  | .askHeard _ _ tail => some tail
  | .rosterHeard _ _ tail => some tail
  | .infoHeard _ _ _ tail => some tail
  | .tallyExpiry _ => none
  | .wantTimerExpiry _ _ => none
  | .sweepDeadline _ _ => none
  | .silenceClose _ _ => none
  | .claimLapse _ _ _ => none
  | .heardLapse _ _ _ _ => none
  | .reassemblyTimeout _ _ _ _ => none
  | .peerAbsent _ _ => none
  | .rosterExpiry _ => none
  | .minuteExpiry _ => none
  | .lineBusy _ => none

end Sys2Proof

namespace Sys2Proof.Laws.LengthByteHolds

/-- What a well-formed command carries of an intact frame is 9n + 34 bits long for a length n that one byte holds (R99). -/
def Statement (i : Instr) : Prop :=
  i.wf = true → ∀ tail, i.carried = some tail → ∃ n, n ≤ 255 ∧ tail.length = 9 * n + 34

/-- The bits that make an intact frame behind its arbitration field are 9n + 34 for n data bytes (R99). -/
theorem tail_length {field : BitVec 11} {fits : BitVec 2 → BitVec 5 → Nat → Bool} {tail : List Bool}
    (h : isIntactTail field fits tail = true) : ∀ u, some tail = some u → ∃ n, n ≤ 255 ∧ u.length = 9 * n + 34 := by
  rintro u ⟨⟩
  unfold isIntactTail at h
  split at h
  · next pr sender kind data hj =>
    have := Machine.judgeBits_length hj
    simp only [List.length_append, Machine.fieldBits_length] at this
    exact ⟨data.length, this.2, by omega⟩
  · simp at h

/-- A command that carries no frame has nothing to hold (R99). -/
theorem nothing {P : List Bool → Prop} : ∀ u, (none : Option (List Bool)) = some u → P u := by simp

theorem reset (pin : ResetPin) :
    Statement (.reset pin) :=
  fun _ => nothing

theorem endOfBoot (steps : Nat) :
    Statement (.endOfBoot steps) :=
  fun _ => nothing

theorem levelWord (t : Nat) (word : MarkedWord) :
    Statement (.levelWord t word) :=
  fun _ => nothing

theorem wordDiscard (t : Nat) :
    Statement (.wordDiscard t) :=
  fun _ => nothing

theorem gainDownEnd (t : Nat) :
    Statement (.gainDownEnd t) :=
  fun _ => nothing

theorem phasingTimeout (t : Nat) :
    Statement (.phasingTimeout t) :=
  fun _ => nothing

theorem lineIdle (t : Nat) :
    Statement (.lineIdle t) :=
  fun _ => nothing

theorem frameStart (t : Nat) :
    Statement (.frameStart t) :=
  fun _ => nothing

theorem arbitrationLost (t : Nat) (bit : Nat) :
    Statement (.arbitrationLost t bit) :=
  fun _ => nothing

theorem arbitrationWon (t : Nat) :
    Statement (.arbitrationWon t) :=
  fun _ => nothing

theorem sendCompletion (t : Nat) (outcome : SendOutcome) :
    Statement (.sendCompletion t outcome) :=
  fun _ => nothing

theorem silentEnd (t : Nat) :
    Statement (.silentEnd t) :=
  fun _ => nothing

theorem frameDamaged (t : Nat) (bits : List Bool) :
    Statement (.frameDamaged t bits) :=
  fun _ => nothing

theorem frameMalformed (t : Nat) (priority : BitVec 2) (sender : Station) (kind : BitVec 5) (tail : List Bool) :
    Statement (.frameMalformed t priority sender kind tail) :=
  fun h => tail_length (field := Machine.arbitrationField priority sender kind) (fits := fun p k n => !(Machine.frameFits p k n)) h

theorem clash (t : Nat) (priority : BitVec 2) (kind : BitVec 5) (tail : List Bool) :
    Statement (.clash t priority kind tail) :=
  fun h => by
    obtain ⟨_, _, intact⟩ := List.any_eq_true.mp (show isClashTail priority kind tail = true from h)
    exact tail_length intact

theorem openHeard (t : Nat) (sender : Station) (tail : List Bool) :
    Statement (.openHeard t sender tail) :=
  fun h => tail_length h

theorem closeHeard (t : Nat) (sender : Station) (tail : List Bool) :
    Statement (.closeHeard t sender tail) :=
  fun h => tail_length h

theorem dropHeard (t : Nat) (sender : Station) (tail : List Bool) :
    Statement (.dropHeard t sender tail) :=
  fun h => tail_length h

theorem tallyHeard (t : Nat) (sender : Station) (tail : List Bool) :
    Statement (.tallyHeard t sender tail) :=
  fun h => tail_length h

theorem wantHeard (t : Nat) (sender : Station) (tail : List Bool) :
    Statement (.wantHeard t sender tail) :=
  fun h => tail_length h

theorem claimHeard (t : Nat) (sender : Station) (tail : List Bool) :
    Statement (.claimHeard t sender tail) :=
  fun h => tail_length h

theorem lineHeard (t : Nat) (sender : Station) (tail : List Bool) :
    Statement (.lineHeard t sender tail) :=
  fun h => tail_length h

theorem restartHeard (t : Nat) (sender : Station) (tail : List Bool) :
    Statement (.restartHeard t sender tail) :=
  fun h => tail_length h

theorem askHeard (t : Nat) (sender : Station) (tail : List Bool) :
    Statement (.askHeard t sender tail) :=
  fun h => tail_length h

theorem rosterHeard (t : Nat) (sender : Station) (tail : List Bool) :
    Statement (.rosterHeard t sender tail) :=
  fun h => tail_length h

theorem infoHeard (t : Nat) (kind : InfoKind) (sender : Station) (tail : List Bool) :
    Statement (.infoHeard t kind sender tail) :=
  fun h => tail_length h

theorem tallyExpiry (t : Nat) :
    Statement (.tallyExpiry t) :=
  fun _ => nothing

theorem wantTimerExpiry (t : Nat) (slot : SlotNo) :
    Statement (.wantTimerExpiry t slot) :=
  fun _ => nothing

theorem sweepDeadline (t : Nat) (slot : SlotNo) :
    Statement (.sweepDeadline t slot) :=
  fun _ => nothing

theorem silenceClose (t : Nat) (slot : SlotNo) :
    Statement (.silenceClose t slot) :=
  fun _ => nothing

theorem claimLapse (t : Nat) (key : Key) (index : Nat) :
    Statement (.claimLapse t key index) :=
  fun _ => nothing

theorem heardLapse (t : Nat) (key : Key) (index : Nat) (claimant : Receiver) :
    Statement (.heardLapse t key index claimant) :=
  fun _ => nothing

theorem reassemblyTimeout (t : Nat) (sender : Receiver) (key : Key) (index : Nat) :
    Statement (.reassemblyTimeout t sender key index) :=
  fun _ => nothing

theorem peerAbsent (t : Nat) (station : Station) :
    Statement (.peerAbsent t station) :=
  fun _ => nothing

theorem rosterExpiry (t : Nat) :
    Statement (.rosterExpiry t) :=
  fun _ => nothing

theorem minuteExpiry (t : Nat) :
    Statement (.minuteExpiry t) :=
  fun _ => nothing

theorem lineBusy (t : Nat) :
    Statement (.lineBusy t) :=
  fun _ => nothing

end Sys2Proof.Laws.LengthByteHolds
end

