-- ==== Sys2Proof/Tests/Slice0.lean ====
section
/-! SUPPORT. Small checks of the model against the book's own figures, the smoke test of WellFormed, and a witness for every statement that has hypotheses. -/

set_option Elab.async false

namespace Sys2Proof.Tests

open Sys2Proof.Machine

/-! ## Small states -/

/-- What a command leaves, seen through `f`; none where it answers no next state. -/
def seen {α : Type} (c : Instr) (s : State) (f : State → α) : Option α :=
  match exec c s with
  | .next u => some (f u)
  | _ => none

/-- A running part on an idle line, station 4, tag 3, with eight free pages, at 412,700 ms of station time. -/
def base : State :=
  { State.reset with
    phase := .running
    clock := 412700000
    cst := { Cst.reset with free := [0, 1, 2, 3, 4, 5, 6, 7] }
    xen := { Xen.reset with tallyDue := 414000 }
    slc := { Slc.reset with lineState := .idle, recessiveRun := 11 }
    ssv := { Ssv.reset with own := 4, boot := { BootFields.defaults with tag := 3 }, minuteDue := 420000, rosterDue := 421000 } }

/-- The peers 1 and 6 present as receivers of tag 3. -/
def withPeers (s : State) : State :=
  { s with ssv := { s.ssv with
      peers := (s.ssv.peers.set 1 (some ⟨412000, some (.receiver, 3)⟩)).set 6 (some ⟨412000, some (.receiver, 3)⟩) } }

def k120 : Key := ⟨1, 20⟩

/-- A held line of a quality, on a page. -/
def held (page q : Nat) : LineEntry := ⟨page, q, qualityCode q, 4, .localCopy, 0⟩

/-- Chart 1-20 of chapter 12.1, LIVE and bound, with line 622 at Q 3. -/
def chart : Chart :=
  { freshChart k120 3 .r120 (some 86000) none 86000 with
    newest := some 651, highestHeld := some 651, heldCount := 1, poorCount := 1, wantDue := some 412700,
    lineMap := [(622, held 9 3)] }

/-- Chart 1-20 in slot 2, station 1's code 11 for line 622 in its view. -/
def fade : State :=
  let s := withPeers (setChart 2 (some chart) base)
  setPeerCode 2 1 622 11 s

/-- A chart held to the end: L 1,780, lines 1,290 and 1,301. -/
def oldChart : Chart :=
  { chart with
    state := .held, bound := false, wantDue := none, closeReason := some .stop, announced := some 1780,
    lineMap := [(1290, held 9 80), (1301, held 10 82)], heldCount := 2, poorCount := 0, highestHeld := some 1301 }

/-- Station 6 of chapter 12.3. -/
def contest : State :=
  let s := setChart 0 (some oldChart) base
  { s with ssv := { s.ssv with own := 6 } }

/-- An entry as the frame on the wire. -/
def onWire (p : Payload) : Entry := { newEntry p .xen with onWire := true }

/-- A part with its frame on the wire. -/
def sending (role : TxRole) (e : Entry) (s : State) : State :=
  { s with slc := { s.slc with
      lineState := .busy, role := role, rx := some [], sle := true, sltRecessive := false, queue := [e] } }

/-- The bits after the arbitration field of a frame of a kind with these data bytes. -/
def tailOf (k : Kind) (sender : Station) (data : List Byte) : List Bool := tailBits (kindField k sender) data

/-- An arbitration field and a first separator that is recessive: damaged. -/
def brokenFrame : List Bool := fieldBits (553 : BitVec 11) ++ [true]

def counterOf (n : Fin 16) (s : State) : Nat := s.ssv.counters[n]

def frames (s : State) : List Payload := s.slc.queue.map (·.payload)

/-! ## WellFormed -/

theorem wf_accepts :
    Instr.wf (.reset (.released 7 ⟨false, true, true, true, List.replicate 24 0⟩)) = true ∧ Instr.wf (.endOfBoot 27) = true ∧
    Instr.wf (.arbitrationLost 0 10) = true ∧ Instr.wf (.sendCompletion 0 (.bitError 2269)) = true ∧
    Instr.wf (.sendCompletion 0 (.damagedEcho [false])) = true ∧ Instr.wf (.frameDamaged 0 brokenFrame) = true ∧
    Instr.wf (.frameMalformed 0 0 1 0x1F (tailBits (arbitrationField 0 1 0x1F) [])) = true ∧
    Instr.wf (.dropHeard 0 1 (tailOf .dropK 1 [1, 20])) = true ∧ Instr.wf (.claimLapse 0 ⟨7, 0⟩ 2047) = true := by
  decide +kernel

theorem wf_refuses_boot_bytes :
    Instr.wf (.reset (.released 7 ⟨false, true, true, true, List.replicate 25 0⟩)) = false := by decide
theorem wf_refuses_boot_steps : Instr.wf (.endOfBoot 28) = false := by decide
theorem wf_refuses_arbitration_bit : Instr.wf (.arbitrationLost 0 11) = false := by decide
theorem wf_refuses_error_bit : Instr.wf (.sendCompletion 0 (.bitError 2270)) = false := by decide
theorem wf_refuses_echo_end :
    Instr.wf (.sendCompletion 0 (.damagedEcho [])) = false ∧
    Instr.wf (.sendCompletion 0 (.damagedEcho (List.replicate 8 true))) = false := by decide
theorem wf_refuses_undamaged :
    Instr.wf (.frameDamaged 0 (fieldBits (kindField .dropK 1) ++ tailOf .dropK 1 [1, 20])) = false ∧
    Instr.wf (.frameDamaged 0 []) = false := by decide +kernel
theorem wf_refuses_fitting_malformed :
    Instr.wf (.frameMalformed 0 0 1 0x04 (tailOf .dropK 1 [1, 20])) = false := by decide +kernel
theorem wf_refuses_broken_malformed : Instr.wf (.frameMalformed 0 0 1 0x1F [true]) = false := by decide +kernel
/-- R100, R112: the check sequence of a clash covers own station, whichever of 0..7 that is; 8 is no part's number. -/
theorem wf_accepts_clash_at_every_own :
    ([0, 1, 2, 3, 4, 5, 6, 7] : List Station).all
      (fun own => Instr.wf (.clash 0 1 0x09 (tailBits (arbitrationField 1 own 0x09) []))) = true := by decide +kernel
theorem wf_refuses_clash_of_viewer : Instr.wf (.clash 0 1 0x09 (tailBits (arbitrationField 1 8 0x09) [])) = false := by
  decide +kernel
theorem wf_refuses_broken_clash : Instr.wf (.clash 0 0 0x04 [true]) = false := by decide +kernel
theorem wf_refuses_heard_lengths :
    Instr.wf (.openHeard 0 1 (tailOf .openK 1 [])) = false ∧ Instr.wf (.closeHeard 0 1 (tailOf .closeK 1 [])) = false ∧
    Instr.wf (.dropHeard 0 1 (tailOf .dropK 1 [1])) = false ∧ Instr.wf (.tallyHeard 0 1 (tailOf .tallyK 1 [])) = false ∧
    Instr.wf (.wantHeard 0 1 (tailOf .wantK 1 [])) = false ∧ Instr.wf (.claimHeard 0 1 (tailOf .claimK 1 [])) = false ∧
    Instr.wf (.lineHeard 0 1 (tailOf .lineK 1 (List.replicate 8 0))) = false ∧
    Instr.wf (.restartHeard 0 1 (tailOf .restartK 1 [])) = false ∧ Instr.wf (.askHeard 0 1 (tailOf .askK 1 [])) = false ∧
    Instr.wf (.rosterHeard 0 1 (tailOf .rosterK 1 [])) = false ∧ Instr.wf (.infoHeard 0 .note 1 (tailOf .noteK 1 [])) = false ∧
    Instr.wf (.infoHeard 0 .report 1 (tailOf .reportK 1 [])) = false ∧
    Instr.wf (.infoHeard 0 .describe 1 (tailOf .describeK 1 (List.replicate 4 0))) = false := by decide +kernel
theorem wf_refuses_lapse_keys :
    Instr.wf (.claimLapse 0 ⟨8, 0⟩ 0) = false ∧ Instr.wf (.claimLapse 0 ⟨0, 0⟩ 2048) = false ∧
    Instr.wf (.heardLapse 0 ⟨8, 0⟩ 0 1) = false ∧ Instr.wf (.heardLapse 0 ⟨0, 0⟩ 2048 1) = false ∧
    Instr.wf (.reassemblyTimeout 0 1 ⟨8, 0⟩ 0) = false ∧ Instr.wf (.reassemblyTimeout 0 1 ⟨0, 0⟩ 2048) = false := by decide

/-! ## The book's figures -/

/-- R179: station 1 sending a WANT has 512 + 32 + 9 = 553. -/
theorem test_arbitration_field : arbitrationField 1 1 (kindCode .wantK) = 553 := by decide

/-- R100: the check sequence of the ASCII bytes of "123456789" is 0x29B1. -/
theorem test_check_sequence :
    (([0x31, 0x32, 0x33, 0x34, 0x35, 0x36, 0x37, 0x38, 0x39] : List Byte).flatMap fieldBits).foldl checkStep 0xFFFF = 0x29B1 := by
  decide +kernel

/-- R99: an OPEN has 54 + 46 = 100 bits. -/
theorem test_open_bits : (wireFrame (arbitrationField 0 1 1) (List.replicate 6 0)).length = 100 := by decide +kernel

/-- R179: lines 483 and 490 of block 480 give 0x00000408; stations 2, 3 and 5 give 0x002C; codes 9 and 3 give 0x93. -/
theorem test_masks : lineMask [3, 10] = 0x00000408 ∧ addressMask [2, 3, 5] = 0x002C ∧ packCodes [9, 3] = [0x93] := by decide

/-- R144: 1,200 equal pixels take 75 run bytes; 18 of level 10 take 0xAF 0xA1. -/
theorem test_runs :
    (encodeRuns (List.replicate 1200 15)).length = 75 ∧ encodeRuns (List.replicate 18 10) = [0xAF, 0xA1] := by decide +kernel

/-- R173, R182: start 420 and stop 450 differ by 30, so both take their defaults and the status is CLAMPED. -/
theorem test_pair_rule :
    (judgeBootRecord (some ([0xA3, 3, 0x01, 0xA4, 0x01, 0xC2, 6, 20, 8, 90, 0, 6, 60, 2, 2, 1, 0xFF, 0xFF] ++ List.replicate 6 0))).1 =
        { BootFields.defaults with tag := 3 } ∧
    (judgeBootRecord (some ([0xA3, 3, 0x01, 0xA4, 0x01, 0xC2, 6, 20, 8, 90, 0, 6, 60, 2, 2, 1, 0xFF, 0xFF] ++ List.replicate 6 0))).2.1 =
        .clamped := by decide

/-- Chapter 3: Q of 1,190 usable words of 1,190, mean 52, no impulse is 100, code 15. -/
theorem test_quality :
    qualityOf (completenessTerm 1190 1190) (strengthTerm 52) (impulseTerm 0) = 100 ∧ qualityCode 100 = 15 := by decide

/-- R99, R100: the bits of DROP 1-20 from station 1, written out with its check sequence 0x94DF. -/
def dropBits : List Bool :=
  [0,0,0,0,0,1,0,0,1,0,0, 0,0,0,0,0,0,0,1,0, 0,0,0,0,0,0,0,0,1, 0,0,0,0,1,0,1,0,0, 0,1,0,0,1,0,1,0,0, 0,1,1,0,1,1,1,1,1,
    1,1,1,1,1,1,1].map (· == 1)

theorem test_frame_read : judgeBits dropBits = .intact 0 1 4 [1, 20] ∧ judgeBits (dropBits.take 62) = .undecided := by
  decide +kernel

/-- R100: the last check bit turned, and R99: the first separator and the last end bit turned. -/
theorem test_damage_found :
    judgeBits (dropBits.take 55 ++ [false]) = .damaged ∧ judgeBits (dropBits.take 11 ++ [true]) = .damaged ∧
    judgeBits (dropBits.take 62 ++ [false]) = .damaged := by decide +kernel

def heardAt (pos level : Nat) : HeardWord := ⟨BitVec.ofNat 40 pos, level, 20, true, false⟩

/-- Chapter 2.3 at 120 lpm: pulses 1,000 and 3,401 taken, a run of 110 dark words from 5,801 on. -/
def phasing : Lfr :=
  { Lfr.reset with
    state := .phasing, rate := some .r120, pulses := [⟨1000, 0⟩, ⟨3401, 1⟩], period := some 38416,
    darkRun := some ⟨5801, 110⟩, phasingSince := some 400000 }

/-- Chapter 2.3: the third pulse, at 5,801 against 5,802, sets P to 38,408; the first, at run 30, chooses no rate. -/
theorem test_pulse_accepted :
    ((detectPulse (heardAt 5911 200) 412700 phasing).period, (detectPulse (heardAt 5911 200) 412700 phasing).pulses.length) =
      (some 38408, 3) ∧
    (chooseRate 2401 110 96, chooseRate 2401 110 30) = (some .r120, none) := by decide +kernel

/-- Chapter 2.3: eight pulses, the first miss decided, the second due at word 22,630. -/
def phased : Lfr :=
  { phasing with
    pulses := [⟨1000, 0⟩, ⟨3401, 1⟩, ⟨5801, 2⟩, ⟨8202, 3⟩, ⟨10602, 4⟩, ⟨13003, 5⟩, ⟨15403, 6⟩, ⟨17804, 7⟩],
    period := some 38409, darkRun := none, missCount := 1 }

/-- Chapter 2.6: line 2,046 in progress on slot 1 at offset +2, lines 2,042 and 2,043 in the tail. -/
def toned : State :=
  let copy : Copy := ⟨[15], 80, 0, 4, .localCopy⟩
  let s := setChart 1 (some { freshChart ⟨4, 7⟩ 3 .r120 (some 400000) none 400000 with offset := some 2 }) base
  { s with lfr := { Lfr.reset with
      state := .image, rate := some .r120, period := some 38400, zero := some 56000000, bound := some 1, highest := some 2041,
      line := some ⟨2046, 8410400, 8412800, [], 0, 0⟩,
      tail := [⟨2042, 8400800, 8403199, copy⟩, ⟨2043, 8403200, 8405599, copy⟩] } }

/-- Chapter 2.6: at the stop tone from 8,401,200 on line 2,042 is committed at 2,044, line 2,043 is taken back, and L is 2,045. -/
theorem test_stop_tone :
    (let u := framerReport ⟨7008, false, none, some 8401200⟩ toned
     (u.lfr.state, (recordAt u 1).map (fun c => (c.state, c.lineMap.map Prod.fst, c.announced)), frames u)) =
      (.idle, some (.sweep, [2044], some 2045),
        [.closeF ⟨4, 7⟩ 2045 1, .noteF 4 3 ⟨4, 7⟩ 1, .noteF 3 3 ⟨4, 7⟩ 1]) := by decide +kernel

/-! ## One step of each command -/

theorem test_reset_low :
    seen (.reset .low) fade (fun u => (u.phase, u.slc.lineState, u.ssv.counters[11], (recordAt u 2).isNone)) =
      some (.inReset, .unsynced, 0, true) := by decide +kernel

/-- A boot memory that answers with these bytes. -/
def answering (bytes : List Byte) : BootMemory := ⟨false, true, true, true, bytes⟩

theorem test_reset_released :
    seen (.reset (.released 5 (answering []))) State.reset (fun u => (u.phase, u.ssv.own, u.ssv.bootBus)) =
      some (.boot, 5, .mastering (answering [])) := by
  decide +kernel

/-- A boot record with these two rates and defaults elsewhere. -/
def record (v s1 s0 p1 p0 : Byte) : List Byte :=
  [v, 1, s1, s0, p1, p0, 6, 20, 8, 90, 0, 6, 60, 2, 2, 1, 0xFF, 0xFF] ++ List.replicate 6 0

/-- A part in boot with this boot memory before it. -/
def booting (m : BootMemory) : State :=
  { base with phase := .boot, ssv := { base.ssv with bootBus := .mastering m } }

/-- R160: the first ROSTER of station 4 comes at 1,000 ms. -/
theorem test_end_of_boot :
    seen (.endOfBoot 27) (booting (answering (record 0xA3 1 0x2C 1 0xC2)))
        (fun u => (u.phase, u.clock, u.ssv.rosterDue, u.ssv.status, u.ssv.version)) =
      some (.running, 0, 1000, .asRead, 0xA3) := by decide +kernel

/-- R171, R172: the 24th byte has not come when boot ends, so there is no answer. -/
theorem test_end_of_boot_late :
    seen (.endOfBoot 26) (booting (answering (record 0xA3 1 0x2C 1 0xC2))) (fun u => (u.ssv.status, u.ssv.version, u.ssv.bootBus)) =
      some (.defaults, 0, .freed) := by decide +kernel

/-- Level 200, strength 20, valid, at offset 6: the framer is handed 194. -/
theorem test_level_word :
    seen (.levelWord 0 ⟨.afterEndOfBoot, 0xC851⟩) { base with lcu := { base.lcu with offset := 6 } }
        (fun u => (u.lcu.wordPos, u.lcu.acc.brightSum, u.lfr.history)) =
      some (1, 194, [⟨0, 194, 20, true, false⟩]) := by decide +kernel

/-- R1: the first word taken after boot is one marked after it. -/
theorem test_level_word_marked_early :
    seen (.levelWord 412700010 ⟨.beforeEndOfBoot, 0xC851⟩) base (fun u => (u.lcu.wordPos, u.lcu.windowCount, u.lfr.history, u.now)) =
      some (0, 0, [], 412700) := by decide +kernel

/-- Chapter 2.3: the second miss is decided at word 22,630; Z is 323,273, line 0 starts at 20,204 and line 1, which this word begins, runs from 22,605 to 25,005; the OPEN is the CST's (R83, R103). -/
theorem test_image_entry :
    seen (.levelWord 0 ⟨.afterEndOfBoot, 0xC851⟩) { base with lcu := { base.lcu with wordPos := 22630 }, lfr := phased }
        (fun u => ((u.lfr.zero, u.lfr.tail.map (·.start), u.lfr.line.map (fun l => (l.start, l.next))),
          (u.lfr.bound, u.slc.queue.map (·.owner)))) =
      some ((some 323273, [20204], some (22605, 25005)), (some 0, [.cst])) := by decide +kernel

theorem test_word_discard : seen (.wordDiscard 412700010) base (fun u => (u.lcu.wordPos, u.now)) = some (0, 412700) := by
  decide +kernel

theorem test_gain_down_end :
    seen (.gainDownEnd 412700000) { base with lcu := { base.lcu with gdn := true, gainDownEnd := some 412700 } }
      (fun u => u.lcu.gdn) = some false := by decide +kernel

theorem test_phasing_timeout :
    seen (.phasingTimeout 412700000)
        { base with lfr := { base.lfr with state := .phasing, rate := some .r120, phasingSince := some 392700 } }
      (fun u => (u.lfr.state, u.lfr.rate)) = some (.idle, none) := by decide +kernel

theorem test_line_idle :
    seen (.lineIdle 0) { base with slc := { base.slc with lineState := .busy } } (fun u => u.slc.lineState) = some .idle := by
  decide +kernel

theorem test_line_busy : seen (.lineBusy 0) base (fun u => (u.slc.lineState, u.slc.rx)) = some (.busy, some []) := by
  decide +kernel

/-- R103: of a NOTE and a younger WANT the WANT starts. -/
theorem test_frame_start :
    seen (.frameStart 0)
        { base with slc := { base.slc with
            queue := [newEntry (.noteF 0 3 k120 0) .ssv, newEntry (.wantF k120 0 1 [] 2) .xen] } }
      (fun u => (u.slc.role, u.slc.sle, (wireEntry u.slc.queue).map (·.payload.kind))) =
      some (.contending, true, some .wantK) := by decide +kernel

/-- 553 is 01 0001 01001: its first recessive bit is bit 1. -/
theorem test_arbitration_lost :
    seen (.arbitrationLost 0 1)
        (sending .contending (onWire (.wantF k120 0 1 [] 2)) { base with ssv := { base.ssv with own := 1 } })
      (fun u => (u.slc.role, u.slc.rx, u.slc.queue.map (·.onWire))) = some (.none, some [false, false], [false]) := by
  decide +kernel

/-- Chapter 12.2, event 2: T 60,000, end 60,310, delay 310. -/
theorem test_arbitration_won :
    seen (.arbitrationWon 60309700)
        (sending .contending { onWire (.openF ⟨3, 15⟩ 2 0 0) with transition := 60000 } { base with clock := 60309000 })
      (fun u => (u.slc.role, frames u)) = some (.sending, [.openF ⟨3, 15⟩ 2 0 310]) := by decide +kernel

/-- Chapter 12.3, event 2, at station 4: the claimed line is ACTIVE, counter 8 raised. -/
theorem test_claim_sent :
    seen (.sendCompletion 0 .sent)
        (let s := sending .sending (onWire (.claimF k120 1280 0x400 [])) contest
         { s with xen := { s.xen with claims := [⟨k120, 1290, 6, some 12, .pending, none⟩] } })
      (fun u => (u.xen.claims.map (·.state), counterOf 8 u, counterOf 6 u)) = some ([.active], 1, 1) := by
  decide +kernel

theorem test_damaged_send :
    seen (.sendCompletion 0 (.bitError 20)) (sending .sending (onWire (.noteF 0 3 k120 0)) base)
      (fun u => (u.slc.damageRun, counterOf 7 u, u.slc.queue.length)) = some (1, 1, 0) := by decide +kernel

theorem test_silent_end :
    seen (.silentEnd 412700000) { base with slc := { base.slc with silent := some 412700 } }
      (fun u => (u.slc.silent, frames u)) = some (none, [.noteF 13 3 ⟨0xFF, 0xFF⟩ 0]) := by decide +kernel

theorem test_frame_damaged : seen (.frameDamaged 0 brokenFrame) base (fun u => (counterOf 5 u, u.slc.lineState)) = some (1, .busy) := by
  decide +kernel

theorem test_frame_malformed :
    seen (.frameMalformed 0 0 1 0x1F (tailBits (arbitrationField 0 1 0x1F) [])) base (fun u => (counterOf 5 u, (u.ssv.peers[1]).isSome)) = some (1, true) := by
  decide +kernel

/-- R112: a clash of a WANT has detail 9 × 4 + 1 = 37. -/
theorem test_clash :
    seen (.clash 0 1 0x09 (tailBits (arbitrationField 1 4 0x09) [])) base (fun u => (counterOf 5 u, frames u)) = some (1, [.noteF 15 3 ⟨0xFF, 0xFF⟩ 37]) := by
  decide +kernel

/-- Station 6 of chapter 12.2 at own time 20,304: 60 lpm, transition 18,900, its OPEN 6-41 queued. -/
def silentSix : State :=
  let c := { freshChart ⟨6, 41⟩ 2 .r60 (some 18900) none 18900 with newest := none }
  let s := setChart 2 (some c) { base with clock := 20304000, ssv := { base.ssv with own := 6, boot := { base.ssv.boot with tag := 2 } } }
  let s := setOpenReq 2 .queued s
  { s with slc := { s.slc with queue := [openEntry .cst 2 c] } }

/-- Chapter 12.2, event 1, station 6: 6-41 is withdrawn for 0-9 with offset −1, NOTE class 1 detail 263. -/
theorem test_open_withdraws :
    seen (.openHeard 20304000 0 (tailOf .openK 0 [0, 9, 2, 0, 0, 4])) silentSix
      (fun u => ((recordAt u 2).map (fun c => (c.key, c.offset, c.peerTransition)), frames u)) =
      some (some (⟨0, 9⟩, some (-1), some 20300), [.noteF 1 2 ⟨0, 9⟩ 263]) := by decide +kernel

/-- Chapter 12.2, event 1, station 3: 0-9 becomes the second key with NOTE detail 9, and OPEN 3-15 is queued again. -/
theorem test_open_recorded :
    seen (.openHeard 60304000 0 (tailOf .openK 0 [0, 9, 2, 0, 0, 4]))
        (let c := freshChart ⟨3, 15⟩ 2 .r60 (some 60000) none 60000
         setOpenReq 1 .owed (setChart 1 (some c)
           { base with clock := 60304000, ssv := { base.ssv with own := 3, boot := { base.ssv.boot with tag := 2 } } }))
      (fun u => ((recordAt u 1).map (·.otherKey), frames u, u.xen.openReq[1])) =
      some (some (some ⟨0, 9⟩), [.noteF 2 2 ⟨3, 15⟩ 9, .openF ⟨3, 15⟩ 2 0 0], .queued) := by decide +kernel

theorem test_close_heard :
    seen (.closeHeard 0 1 (tailOf .closeK 1 [1, 20, 0x06, 0xF4, 1])) (setChart 2 (some { chart with bound := false }) base)
      (fun u => (recordAt u 2).map (fun c => (c.state, c.announced, c.sweepDeadline))) =
      some (some (.sweep, some 1780, some 502700)) := by decide +kernel

theorem test_drop_heard :
    seen (.dropHeard 0 1 (tailOf .dropK 1 [1, 20])) contest (fun u => ((recordAt u 0).isNone, u.cst.free.drop 8, frames u)) =
      some (true, [9, 10], [.noteF 6 3 k120 2]) := by decide +kernel

/-- R118: the byte at code position 1 carries line base + 2 high and base + 3 low. -/
theorem test_tally_heard :
    seen (.tallyHeard 0 1 (tailOf .tallyK 1 ([1, 20, 0x02, 0x60] ++ [0, 0x93] ++ List.replicate 14 0))) fade
      (fun u => (peerCode u 2 1 610, peerCode u 2 1 611, peerCode u 2 1 622)) = some (9, 3, 0) := by decide +kernel

/-- Chapter 12.3, event 1, station 6: both lines PENDING at code 12, one CLAIM for them. -/
theorem test_want_heard :
    seen (.wantHeard 0 11 (tailOf .wantK 11 ([1, 20, 0x05, 0x00, 0x00, 0x20, 0x04, 0x00] ++ List.replicate 16 0 ++ [0x00, 0x50]))) contest
      (fun u => (u.xen.claims.map (fun c => (c.index, c.code, c.state)), u.slc.queue.length)) =
      some ([(1290, some 12, .pending), (1301, some 12, .pending)], 1) := by decide +kernel

/-- Chapter 12.3, event 2, station 6: 1,290 is kept against 9, 1,301 withdrawn against 14, HEARD (4) beside both. -/
theorem test_claim_heard :
    seen (.claimHeard 0 4 (tailOf .claimK 4 ([1, 20, 0x05, 0x00, 0x00, 0x20, 0x04, 0x00] ++ [0, 0, 0, 0, 0, 0x90, 0, 0, 0, 0, 0x0E, 0, 0, 0, 0, 0])))
        { contest with
          xen := { contest.xen with claims := [⟨k120, 1290, 6, some 12, .pending, none⟩, ⟨k120, 1301, 6, some 12, .pending, none⟩] }
          slc := { contest.slc with queue := [newEntry (.claimF k120 1280 0x00200400 []) .xen] } }
      (fun u => (u.xen.claims.map (fun c => (c.index, c.state)), frames u, counterOf 9 u)) =
      some ([(1290, .pending), (1290, .heard), (1301, .heard)], [.claimF k120 1280 0x400 []], 1) := by decide +kernel

/-- Chapter 12.1, event 4: fragment 0 of line 622 (Q 74, two fragments) makes a reassembly entry. -/
theorem test_line_heard_first :
    seen (.lineHeard 0 1 (tailOf .lineK 1 ([1, 20, 0x02, 0x6E, 0x20, 74, 0, 0] ++ [0xFF]))) fade
      (fun u => u.xen.assemblies) = some [⟨1, k120, 622, 2, 1, 74, 0, [0xFF], 412700⟩] := by decide +kernel

/-- A line of one fragment that lays down 16 pixels: counter 5, and the held copy stays. -/
theorem test_line_heard_short :
    seen (.lineHeard 0 1 (tailOf .lineK 1 ([1, 20, 0x02, 0x6E, 0x10, 74, 0, 0] ++ [0xFF]))) fade
      (fun u => ((recordAt u 2).map (fun c => ownCode c 622), counterOf 2 u, counterOf 5 u)) = some (some 1, 0, 1) := by
  decide +kernel

/-- Q 74 against Q 3: replaced, code 11, the old page to the free list's tail. -/
theorem test_merge_replaces :
    (let u := mergeOffer 2 k120 622 ⟨decodeRuns (List.replicate 75 0xFF), 74, 0, 1, .peerCopy⟩ fade
     ((recordAt u 2).map (fun c => (ownCode c 622, c.poorCount)), u.cst.free, counterOf 2 u, counterOf 3 u)) =
      (some (11, 0), [1, 2, 3, 4, 5, 6, 7, 9], 1, 1) := by decide +kernel

theorem test_restart_heard :
    seen (.restartHeard 0 1 (tailOf .restartK 1 [0x00, 0x10])) fade
      (fun u => ((recordAt u 2).map (·.dirty), (u.ssv.peers[6]).isNone, u.slc.queue.length, peerCode u 2 1 622)) =
      some (some (BitVec.allOnes 64), true, 1, 0) := by decide +kernel

/-- Chapter 12.5: slot 2 described at k = 1 in state 0x31; k = 2 is null with n = 2. -/
def asked : State :=
  setChart 0 (some { oldChart with key := ⟨6, 40⟩, lineMap := [] }) (setChart 2 (some oldChart) base)

theorem test_ask_heard :
    seen (.askHeard 0 11 (tailOf .askK 11 [4, 1])) asked
      (fun u => (frames u).map (fun p => match p with | .describeF r k d => some (r, k, d.state, d.otherKey) | _ => none)) =
      some [some (11, 1, 0x31, ⟨0xFF, 0xFF⟩)] := by decide +kernel

theorem test_ask_null :
    seen (.askHeard 0 11 (tailOf .askK 11 [4, 2])) asked frames = some [.describeNullF 11 2 2] := by decide +kernel

theorem test_roster_heard :
    seen (.rosterHeard 0 6 (tailOf .rosterK 6 [1, 3, 4, 100, 0, 0xA3, 0, 0])) base (fun u => u.ssv.peers[6]) =
      some (some ⟨412700, some (.receiver, 3)⟩) := by decide +kernel

theorem test_info_heard :
    seen (.infoHeard 0 .note 6 (tailOf .noteK 6 [0, 3, 1, 20, 0, 4])) base (fun u => (counterOf 4 u, u.slc.queue)) = some (1, []) := by
  decide +kernel

/-- Chapter 12.1, event 5: line 622 is the one wanted line, mask 0x00004000, asked of station 1. -/
theorem test_want_timer :
    seen (.wantTimerExpiry 412700000 2) fade
      (fun u => (frames u, counterOf 11 u, (recordAt u 2).bind (·.wantDue))) =
      some ([.wantF k120 608 0x4000 (List.replicate 14 0 ++ [1] ++ List.replicate 17 0) 0x0002], 1, some 416700) := by decide +kernel

theorem test_tally_expiry :
    seen (.tallyExpiry 414000000) (setChart 2 (some { chart with dirty := 0x80000 }) base)
      (fun u => (u.slc.queue.length, (recordAt u 2).map (·.dirty), u.xen.tallyPtr, u.xen.tallyDue)) =
      some (1, some 0, 3, 416000) := by decide +kernel

theorem test_sweep_deadline :
    seen (.sweepDeadline 412700000 2) (setChart 2 (some { chart with state := .sweep, bound := false, sweepDeadline := some 412700 }) base)
      (fun u => ((recordAt u 2).map (fun c => (c.state, c.used)), frames u)) =
      some (some (.held, true), [.noteF 5 3 k120 2]) := by decide +kernel

theorem test_silence_close :
    seen (.silenceClose 412700000 2) (setChart 2 (some { chart with bound := false, lastReference := 292700 }) base)
      (fun u => ((recordAt u 2).map (·.state), frames u)) = some (some .sweep, [.noteF 4 3 k120 5]) := by decide +kernel

/-- R61, R175: with sweep seconds 0 a close by silence raises NOTE class 5 with detail 3. -/
theorem test_silence_close_held :
    seen (.silenceClose 412700000 2)
        (setChart 2 (some { chart with bound := false, lastReference := 292700 })
          { base with ssv := { base.ssv with boot := { base.ssv.boot with sweepSeconds := 0 } } })
      (fun u => ((recordAt u 2).map (fun c => (c.state, c.closeReason)), frames u)) =
      some (some (.held, some .silence), [.noteF 5 3 k120 3]) := by decide +kernel

theorem test_claim_lapse :
    seen (.claimLapse 412700000 k120 622)
        { fade with xen := { fade.xen with claims := [⟨k120, 622, 4, some 1, .active, some 412700⟩], build := [⟨k120, 622⟩] } }
      (fun u => (u.xen.claims, u.xen.build, counterOf 10 u)) = some ([], [], 1) := by decide +kernel

/-- Chapter 12.1, event 4: the HEARD entry of line 622 lapses, counter 10. -/
theorem test_heard_lapse :
    seen (.heardLapse 414706000 k120 622 1)
        { fade with xen := { fade.xen with claims := [⟨k120, 622, 1, none, .heard, some 414706⟩] } }
      (fun u => (u.xen.claims, counterOf 10 u)) = some ([], 1) := by decide +kernel

/-- Chapter 12.1, event 4: the reception begun at 412,901 times out at 414,901, counter 5. -/
theorem test_reassembly_timeout :
    seen (.reassemblyTimeout 414901000 1 k120 622)
        { fade with xen := { fade.xen with assemblies := [⟨1, k120, 622, 2, 1, 74, 0, [0xFF], 412901⟩] } }
      (fun u => (u.xen.assemblies, counterOf 5 u)) = some ([], 1) := by decide +kernel

theorem test_peer_absent :
    seen (.peerAbsent 562000000 1) fade (fun u => (u.ssv.peers[1], peerCode u 2 1 622, frames u)) =
      some (none, 0, [.noteF 14 3 ⟨0xFF, 0xFF⟩ 1]) := by decide +kernel

/-- R160: tag 3, three FREE slots, no 64 free pages, status DEFAULTS. -/
theorem test_roster_expiry :
    seen (.rosterExpiry 421000000) fade (fun u => (frames u, u.ssv.rosterDue)) =
      some ([.rosterF 1 3 3 0 2 0 0 0], 481000) := by decide +kernel

theorem test_minute_expiry :
    seen (.minuteExpiry 420000000) (bump 2 32 base)
      (fun u => (counterOf 2 u, frames u)) =
      some (0, [.reportF [0, 0, 32, 0, 0, 0, 0, 0, 0, 0, 0, 0, 0, 0, 0, 0]]) := by decide +kernel

theorem test_step_from_reset : step State.reset = .next State.reset := rfl

/-! ## Witnesses: for every statement with hypotheses, states and operands that meet each clause's hypotheses -/

theorem witness_StepRunsFrontCommand : ({ base with pending := [.lineIdle 0] } : State).pending = .lineIdle 0 :: [] := rfl

theorem witness_IdleStepMovesTime :
    (State.reset.pending = [] ∧ State.reset.phase = .inReset) ∧
    ((booting (answering [])).pending = [] ∧ (booting (answering [])).phase = .boot) ∧
    (base.pending = [] ∧ base.phase = .running) := by decide +kernel

theorem witness_OnlyResetAndBootConfigure :
    (∀ pin, Instr.lineIdle 0 ≠ .reset pin) ∧ (∀ steps, Instr.lineIdle 0 ≠ .endOfBoot steps) := ⟨nofun, nofun⟩

theorem witness_ResetPinTakesEffect : State.reset.phase = .inReset ∧ base.phase ≠ .inReset := by decide

/-- The record of chapter 10 on the bus: taken whole in 27 steps; none with BMD low; one, two or three steps where the device refuses. -/
theorem witness_BootMemoryRead :
    let bytes := record 0xA3 1 0x2C 1 0xC2
    let steps (n : Nat) (m : BootMemory) := (takeBootSteps n (booting m)).ssv
    base.ssv.bootBus = .freed ∧
    ((booting (answering bytes)).ssv.bootBus = .mastering (answering bytes) ∧ (booting (answering bytes)).ssv.bootSteps = [] ∧
      bytes.length = 24) ∧
    (steps 26 (answering bytes)).bootBus = .mastering (answering bytes) ∧ (steps 27 (answering bytes)).bootBus = .freed ∧
    (steps 27 ⟨true, true, true, true, bytes⟩).bootSteps = [] ∧
    [(steps 27 ⟨false, false, true, true, bytes⟩).bootSteps.length, (steps 27 ⟨false, true, false, true, bytes⟩).bootSteps.length,
      (steps 27 ⟨false, true, true, false, bytes⟩).bootSteps.length, (steps 27 ⟨false, true, true, true, [0xA3]⟩).bootSteps.length] =
      [1, 2, 3, 4] := by decide +kernel

theorem witness_EndOfBootStartsThePart :
    let taken (n : Nat) (v : Byte) := takenBytes (takeBootSteps n (booting (answering (record v 1 0x2C 1 0xC2)))).ssv.bootSteps
    base.phase ≠ .boot ∧ (booting (answering [])).phase = .boot ∧ (taken 26 0xA3).length = 23 ∧
    ((taken 27 0xA3).length = 24 ∧ (taken 27 0xA3).getD 0 0 = 0xA3) ∧
    ((taken 27 0xA2).length = 24 ∧ (taken 27 0xA2).getD 0 0 ≠ 0xA3) := by decide +kernel

/-- Rates 300 and 399 differ by 99, rates 300 and 400 by 100. -/
theorem witness_EndOfBootStartsThePart_rates :
    (bootFields (record 0xA3 1 0x2C 1 0x8F)).1.stopRate = 450 ∧ (bootFields (record 0xA3 1 0x2C 1 0x90)).1.stopRate = 400 ∧
    (bootFields (record 0xA3 1 0x2C 1 0x90)).2 = false := by decide

theorem witness_LevelWordTaken : State.reset.phase ≠ .running ∧ base.phase = .running := by decide

def atWord (n : Nat) : State := { base with lcu := { base.lcu with windowCount := n } }

theorem witness_WindowAccumulates : (atWord 1198).phase = .running ∧ (atWord 1198).lcu.windowCount + 1 < 1200 := by decide

theorem witness_WindowCloses : (atWord 1199).phase = .running ∧ (atWord 1199).lcu.windowCount = 1199 := by decide

/-- A window of 600 usable words, all bright, at this bright mean. -/
def window (mean : Nat) : WindowAcc := ⟨600, 600 * 20, 0, 0, 600, 600 * mean⟩

theorem witness_WindowVerdictsStep :
    let b := BootFields.defaults
    let ok (a : WindowAcc) : Prop := ¬ (a.meanStrength < b.fadeThreshold) ∧ 600 ≤ a.usable ∧ 600 ≤ a.brightCount
    { b with tuningOn := false }.tuningOn = false ∧ b.tuningOn = true ∧ ¬ (600 ≤ (WindowAcc.zero).usable) ∧
    ok (window 247) ∧ 246 < (window 247).brightMean ∧ ok (window 246) ∧ (window 246).brightMean ≤ 246 ∧
    ok (window 234) ∧ 234 ≤ (window 234).brightMean ∧ ok (window 233) ∧ (window 233).brightMean < 234 ∧
    64 < (((window 175).brightMean : Int) - 240).natAbs ∧ Lcu.reset.jumpRun + 1 < 4 ∧
    { Lcu.reset with jumpRun := 3 }.jumpRun + 1 = 4 ∧ Lcu.reset.tuningBlank = 0 ∧ { Lcu.reset with tuningBlank := 1 }.tuningBlank ≠ 0 := by
  decide

theorem witness_pattern_runs :
    PatternRun.Sound .zero ∧ PatternRun.Sound ⟨1, some 0, false⟩ ∧ PatternRun.Sound ⟨6, some 0, false⟩ ∧
    PatternRun.Sound ⟨7, some 0, false⟩ ∧ PatternRun.Sound ⟨8, some 0, true⟩ :=
  ⟨⟨by decide, by decide, by decide⟩, ⟨by decide, by decide, by decide⟩, ⟨by decide, by decide, by decide⟩,
    ⟨by decide, by decide, by decide⟩, ⟨by decide, by decide, by decide⟩⟩

theorem witness_LevelPortTimesEnd :
    let g := { base with lcu := { base.lcu with gdn := true, gainDownEnd := some 412700 } }
    let p := { base with lfr := { base.lfr with state := .phasing, rate := some .r120, phasingSince := some 392700 } }
    (g.phase = .running ∧ g.lcu.gainDownEnd = some 412700 ∧ 412700 ≤ stampAt 0 g) ∧
    (p.phase = .running ∧ p.lfr.state = .phasing ∧ p.lfr.phasingSince = some 392700 ∧ 392700 + 20000 ≤ stampAt 0 p) := by
  decide +kernel

/-- IDLE after a dark run of this length from word 5,801 on. -/
def idling (length : Nat) (first : Option WordRun) : Lfr :=
  { Lfr.reset with darkRun := some ⟨5801, length⟩, firstPulse := first }

/-- The third pulse is predicted at 5,802 ± 24; the rate's band is 48 to 192 words. -/
theorem witness_PulsesTaken :
    ((heardAt 5911 192).valid = true ∧ 192 ≤ (heardAt 5911 192).level) ∧ ¬ (192 ≤ (heardAt 5911 191).level) ∧
    Lfr.reset.darkRun = none ∧ toned.lfr.state = .image ∧
    ((idling 24 none).state = .idle ∧ (idling 24 none).darkRun = some ⟨5801, 24⟩ ∧ (idling 384 none).firstPulse = none ∧
      (idling 23 none).darkRun = some ⟨5801, 23⟩ ∧ (idling 385 none).darkRun = some ⟨5801, 385⟩) ∧
    ((idling 110 (some ⟨3400, 96⟩)).firstPulse = some ⟨3400, 96⟩ ∧ wordsAfter 5801 3400 = 2401 ∧
      rateFits 2401 96 110 .r120 = true ∧ rateFits 2401 96 193 .r120 = false ∧ chooseRate 801 96 110 = none) ∧
    (phasing.state = .phasing ∧ phasing.rate = some .r120 ∧ phasing.pulses = ⟨1000, 0⟩ :: ⟨3401, 1⟩ :: [] ∧
      phasing.darkRun = some ⟨5801, 110⟩ ∧ predictedPulse phasing.pulses 38416 0 = some 5802 ∧
      wordsAfter (5826 + BitVec.ofNat 40 24) 5802 ≤ 48 ∧ ¬ (wordsAfter (5827 + BitVec.ofNat 40 24) 5802 ≤ 48) ∧
      pulseBand .r120 48 = true ∧ pulseBand .r120 192 = true ∧ pulseBand .r120 193 = false) ∧
    (phased.state = .phasing ∧ phased.pulses = ⟨1000, 0⟩ :: ⟨3401, 1⟩ :: phased.pulses.drop 2) := by decide +kernel

/-- A reception of line 622 from station 1 begun at `start`, two of `count` fragments to come. -/
def begun (count start : Nat) : Assembly := ⟨1, k120, 622, count, 1, 74, 0, [0xFF], start⟩

/-- The second miss is decided at 22,630 unless a run begun at 22,581 or later and shorter than 385 words goes on. -/
theorem witness_PhasingDecides :
    let seen (f : Lfr) := detectPulse (heardAt 22630 200) 412700 f
    ((seen phased).state = .phasing ∧ (seen phased).rate = some .r120 ∧
      predictedPulse (seen phased).pulses ((seen phased).period.getD 0) (seen phased).missCount = some 22605 ∧
      isBefore 22629 (22605 + BitVec.ofNat 40 25) = true ∧ ¬ isBefore 22630 (22605 + BitVec.ofNat 40 25) = true ∧
      (seen phased).darkRun = none ∧ (seen phased).missCount ≠ 0 ∧ 8 ≤ (seen phased).pulses.length) ∧
    wordsAfter (22581 + BitVec.ofNat 40 24) 22605 ≤ 48 ∧ 384 < 385 ∧
    (seen { phased with missCount := 0 }).missCount = 0 ∧ (seen { phased with pulses := phased.pulses.drop 1 }).pulses.length < 8 ∧
    toned.lfr.state = .image ∧ (seen Lfr.reset).state ≠ .phasing ∧ Lfr.reset.state = .idle ∧
    (⟨0, false, none, some 0⟩ : WindowReport).stop ≠ none ∧ (⟨0, false, some 0, none⟩ : WindowReport).stop = none := by
  decide +kernel

/-- Chart 1-20 adopted, its transition 8 lines before a heard OPEN's; with and without a second key. -/
def adopted (other : Option Key) : State :=
  setChart 1 (some { freshChart k120 3 .r120 none (some 408700) 408700 with otherKey := other }) base

/-- Four slots in one state. -/
def filled (c : Chart) : State := { base with cst := { base.cst with slots := Vector.replicate 4 (some c) } }

theorem witness_ImageEntered :
    phased.pulses.getLast? = some ⟨17804, 7⟩ ∧ phased.period = some 38409 ∧
    nearestSlot (bindCandidate (adopted none) .r120 412700) = some (1, 8) ∧ (recordAt (adopted none) 1).isSome = true ∧
    (nearestSlot (bindCandidate (adopted none) .r120 412950) = none ∧ (findSlot (adopted none)).2 = some 0) ∧
    (nearestSlot (bindCandidate (filled chart) .r120 412700) = none ∧ (findSlot (filled chart)).2 = none) := by decide +kernel

/-- Chapter 2.6's image: the line in progress ends before 8,412,800; index 2,046 with offset +2 lies past the last, 2,045 is the last. -/
theorem witness_LinesCutAndCommitted :
    let l : LineInProgress := ⟨2046, 8410400, 8412800, [], 0, 0⟩
    let full := { toned with lfr := { toned.lfr with tail := List.replicate 9 (toned.lfr.tail.headD ⟨0, 0, 0, ⟨[], 0, 0, 0, .localCopy⟩⟩) } }
    toned.lfr.state = .image ∧ toned.lfr.line = some l ∧
    isBefore 8412799 l.next = true ∧ isBefore 8412800 l.next = false ∧ (closeLine l toned).lfr.line ≠ none ∧
    (closeLine { l with index := 2055 } toned).lfr.line = none ∧ toned.lfr.zero = some 56000000 ∧ toned.lfr.period = some 38400 ∧
    toned.lfr.tail.length < 9 ∧ full.lfr.tail.length = 9 ∧ base.lfr.bound = none ∧ toned.lfr.bound = some 1 ∧
    (recordAt toned 1).bind (·.offset) = some 2 ∧ ((2045 : Nat) : Int) + 2 = ((2047 : Nat) : Int) ∧
    (2048 : Int) ≤ ((2046 : Nat) : Int) + 2 ∧ ((0 : Nat) : Int) + (-1) < 0 := by decide +kernel

theorem witness_ImageEnds :
    let faded (n : Nat) (mode : FadeMode) : State :=
      { toned with lfr := { toned.lfr with fadedCount := n }, ssv := { toned.ssv with boot := { toned.ssv.boot with fadeMode := mode } } }
    (toned.lfr.state = .image ∧ toned.lfr.line ≠ none ∧ toned.lfr.bound = some 1 ∧ (recordAt toned 1).isSome = true) ∧
    base.lfr.bound = none ∧ isBefore 8401199 8401200 = true ∧ isBefore 8401200 8401200 = false ∧
    (faded 238 .close).lfr.fadedCount + 1 < (faded 238 .close).ssv.boot.fadeSeconds * 4 ∧
    (faded 239 .close).ssv.boot.fadeSeconds * 4 ≤ (faded 239 .close).lfr.fadedCount + 1 ∧
    (faded 239 .close).ssv.boot.fadeMode = .close ∧ (faded 239 .report).ssv.boot.fadeMode = .report ∧
    (faded 239 .none).ssv.boot.fadeMode = .none := by decide +kernel

theorem witness_LinesScored :
    2 ≤ [some 0, none].length ∧ (freshLine 0 0 2400).pixels[1199]? = some (0, 0) := by decide +kernel

theorem witness_QualityAndCode :
    (0 < 1200 ∧ 1200 ≤ 1200) ∧ (0 < 1200 ∧ 11 ≤ 1200 ∧ 100 * 11 < 1200) ∧ 40 ≤ 40 ∧ 100 ≤ 100 ∧ 42 ≤ 43 := by decide

def slotTwo : SlotNo := 2

/-- A swept chart of two lines, line 0 held: line 1 completes it at Q 20, not at Q 19. -/
def sweptPair : Chart :=
  { chart with state := .sweep, bound := false, announced := some 2, lineMap := [(0, held 9 80)], poorCount := 0, highestHeld := some 0 }

theorem witness_MergeRuleDecides :
    recordAt fade slotTwo = some chart ∧ chart.answersTo ⟨1, 21⟩ = false ∧
    chart.answersTo k120 = true ∧ mapGet chart.lineMap 622 = some (held 9 3) ∧
    8 < (held 9 3).q + fade.ssv.boot.margin ∧ (held 9 3).q + fade.ssv.boot.margin ≤ 9 ∧
    mapGet chart.lineMap 623 = none ∧ fade.cst.free = 0 :: [1, 2, 3, 4, 5, 6, 7] ∧
    ({ fade with cst := { fade.cst with free := [] } } : State).cst.free = [] ∧ chart.state ≠ .sweep ∧
    (sweptPair.state = .sweep ∧ ({ sweptPair with lineMap := mapSet 1 (held 8 20) sweptPair.lineMap } : Chart).complete 20 = true ∧
      ({ sweptPair with lineMap := mapSet 1 (held 8 19) sweptPair.lineMap } : Chart).complete 20 = false) := by decide +kernel

theorem witness_AllocationFindsSlot :
    lowestFree (adopted none) = some 0 ∧ lowestFree (filled chart) = none ∧
    (recordAt (filled chart) (filled chart).cst.evictPtr = some chart ∧ chart.state ≠ .held ∧ oldChart.state = .held ∧
      { oldChart with used := true }.used = true ∧ oldChart.used = false) ∧
    (∀ i, ∃ c, recordAt (filled chart) i = some c ∧ c.state ≠ .held) ∧
    (let s := setChart 0 (some chart) (filled { oldChart with used := true })
     (∀ i, ∃ c, recordAt s i = some c ∧ (c.state = .held → c.used = true)) ∧
     ∃ c, recordAt s s.cst.evictPtr = some c ∧ c.state ≠ .held) ∧
    (∀ i, ∃ c, recordAt (filled { oldChart with used := true }) i = some c ∧ c.state = .held ∧ c.used = true) := by
  refine ⟨by decide +kernel, by decide +kernel, by decide +kernel, fun i => ⟨chart, ?_, by decide⟩, ⟨fun i => ?_, chart, ?_, by decide⟩,
    fun i => ⟨{ oldChart with used := true }, ?_, by decide, rfl⟩⟩
  · revert i; decide +kernel
  · by_cases h : i = 0
    · exact ⟨chart, by subst h; decide +kernel, by decide⟩
    · exact ⟨{ oldChart with used := true }, by revert i; decide +kernel, fun _ => rfl⟩
  · decide +kernel
  · revert i; decide +kernel

/-- At 120 lpm 4,249 ms lie within eight and a half lines, 4,250 ms do not; at equal distance slot 1 comes before slot 2. -/
theorem witness_OffsetRounds :
    offsetWithin8 4249 0 .r120 = some 8 ∧ offsetWithin8 (-250) 0 .r120 = some (-1) ∧ offsetWithin8 4250 0 .r120 = none ∧
    nearestSlot (fun _ => none) = none ∧
    nearestSlot (fun i => if i = 2 then some (-1) else if i = 1 then some 1 else none) = some (1, 1) := by decide

theorem witness_FrameLayoutsReadBack : (Payload.lineF k120 0 1 0 74 0 [0xFF]).sized = true ∧
    (Payload.tallyF k120 0 (List.replicate 32 0)).sized = true := by decide

theorem witness_FramesOnTheWire :
    judgeBits dropBits = .intact 0 1 4 [1, 20] ∧ ([1, 20] : List Byte).length ≤ 255 ∧
    checkSequence (kindField .dropK 1) [1, 20] = 0x94DF ∧ (0x94DE : BitVec 16) ≠ 0x94DF ∧ judgeBits brokenFrame ≠ .undecided := by
  decide +kernel

theorem witness_PixelsReadBack :
    (List.replicate 1200 (15 : BitVec 4)).length = 1200 ∧ Memory.wf [(3, [15])] ∧ (4 : Nat) ≠ 3 := by decide +kernel

def fragment : Entry := newEntry (.lineF k120 622 2 0 74 0 [0xFF]) .xen

def noted : Entry := newEntry (.noteF 0 3 k120 0) .ssv

def queued (q : List Entry) (s : State) : State := { s with slc := { s.slc with queue := q } }

def toBuild (l : List BuildLine) (s : State) : State := { s with xen := { s.xen with build := l } }

/-- Line 622 is held, all black: its 75 run bytes make one fragment; line 623 is not. -/
theorem witness_BuildAttempts :
    let group := (lineFragments k120 622 (held 9 3) blankPage).map (fun p => (⟨p, .xen, none, 0, [], false⟩ : Entry))
    fade.xen.build = [] ∧ (toBuild [⟨k120, 623⟩] fade).xen.build = ⟨k120, 623⟩ :: [] ∧ heldCopy fade k120 623 = none ∧
    heldCopy fade k120 622 = some (held 9 3, blankPage) ∧ group.length = 1 ∧ (enqueueGroup group fade).2 = true ∧
    (enqueueGroup group (queued (List.replicate 32 noted) fade)).2 = false ∧
    (queued [] fade).slc.queue.length < (queued [noted] fade).slc.queue.length := by decide +kernel

theorem witness_OfferedFrameStarts :
    (queued [noted] base).slc.role = .none ∧ (queued [noted] base).slc.lineState = .idle ∧
    (queued [noted] base).slc.silent = none ∧ offeredPlace (queued [noted] base).slc.queue = some 0 ∧ base.slc.queue = [] := by
  decide

theorem witness_QueueAndCounters :
    ((List.replicate 31 noted).length < 32 ∧ ¬ ((List.replicate 32 noted).length < 32) ∧
      lineEntries (List.replicate 23 fragment) < 24 ∧ ¬ (lineEntries (List.replicate 24 fragment) < 24) ∧
      lineEntries (List.replicate 22 fragment) + [fragment, fragment].length ≤ 24 ∧
      ¬ (lineEntries (List.replicate 23 fragment) + [fragment, fragment].length ≤ 24)) ∧
    (let e := newEntry (.claimF k120 1280 0x400 []) .xen
     e.onWire = false ∧ (onWire e.payload).onWire = true ∧ e.payload = .claimF k120 1280 0x400 []) ∧
    (Payload.dropF k120).chartKey = some k120 ∧ (Payload.askF 4 1).kind = .askK := by decide +kernel

/-- An own WANT on the wire, with requests that wait for its loss. -/
def wanting (waiting : List Request) : State :=
  sending .contending { onWire (.wantF k120 0 1 [] 2) with waiting := waiting } base

theorem witness_LineAndArbitration :
    let busy := { base with slc := { base.slc with lineState := .busy } }
    let reading := { base with slc := { base.slc with lineState := .busy, rx := some [] } }
    let lost (s : State) := (s.slc.queue.filterMap (fun d =>
      if d.onWire then Entry.applyAll d.waiting { d with onWire := false, waiting := [] } else some d)).length
    (busy.slc.rx = none ∧ busy.slc.role = .none ∧ busy.slc.lineState ≠ .idle ∧ busy.slc.lineState ≠ .unsynced) ∧
    base.slc.lineState = .idle ∧ reading.slc.rx ≠ none ∧
    (({ base with slc := Slc.reset } : State).slc.rx = none ∧ ({ base with slc := Slc.reset } : State).slc.lineState = .unsynced) ∧
    ((wanting []).phase = .running ∧ (wanting []).slc.role = .contending ∧
      wireEntry (wanting []).slc.queue = some (onWire (.wantF k120 0 1 [] 2)) ∧
      (fieldBits (entryArbitration (wanting []).ssv.own (onWire (.wantF k120 0 1 [] 2))))[10]? = some true ∧
      (∀ d ∈ (wanting []).slc.queue, d.onWire = true → d.waiting = [])) ∧
    lost (wanting [.remove]) < (wanting [.remove]).slc.queue.length ∧ lost (wanting []) = (wanting []).slc.queue.length := by
  decide +kernel

def closing : Entry := onWire (.closeF k120 1780 1)

def closingAt (role : TxRole) (run : Nat) : State :=
  let s := sending role closing base
  { s with slc := { s.slc with damageRun := run } }

/-- The echo damaged at the first end bit and at the last. -/
theorem witness_SendCompletes :
    wireEntry (closingAt .sending 14).slc.queue = some closing ∧ (closingAt .sending 14).slc.damageRun < 15 ∧
    closing.payload.sized = true ∧
    closing.payload.kind ∈ [Kind.closeK, .tallyK, .wantK, .rosterK, .describeK, .noteK, .reportK] ∧
    outcomePossible .sending (entryBits 4 closing) .sent = true ∧
    outcomePossible .sending (entryBits 4 closing) (.bitError 11) = true ∧
    outcomePossible .contending (entryBits 4 closing) (.bitError 0) = true ∧
    outcomePossible .sending (entryBits 4 closing) (.damagedEcho [false]) = true ∧
    outcomePossible .sending (entryBits 4 closing) (.damagedEcho (List.replicate 6 true ++ [false])) = true := by decide +kernel

/-- The OPEN of slot 2's chart, with that chart in the slot, with the slot FREE, and with another chart there. -/
theorem witness_OwnersActOnCompletions :
    ((openEntry .cst 2 chart).payload = .openF k120 3 1 0 ∧ (openEntry .cst 2 chart).slot = some 2 ∧ recordAt fade 2 = some chart ∧
      recordAt base 2 = none ∧ (recordAt (setChart 2 (some { chart with key := ⟨1, 21⟩ }) base) 2).map (·.key) = some ⟨1, 21⟩) ∧
    (newEntry (.claimF k120 1280 0x400 []) .xen).payload = .claimF k120 1280 0x400 [] ∧
    fragment.payload = .lineF k120 622 2 0 74 0 [0xFF] ∧ (0 : BitVec 4).toNat + 1 ≠ (2 : BitVec 4).toNat ∧
    (1 : BitVec 4).toNat + 1 = (2 : BitVec 4).toNat ∧ slotOf fade k120 = some 2 ∧ slotOf base k120 = none ∧
    (let u := { contest with xen := { contest.xen with claims := [⟨k120, 1290, 6, some 12, .pending, none⟩] } }
     maskPlaces 0x400 = [10] ∧
     (maskPlaces 0x400).filter (fun p => u.xen.claims.any (fun c => c.state == .pending && c.key == k120 && c.index == 1280 + p)) ≠ []) := by
  decide +kernel

theorem witness_SilentModeEntersAndEnds :
    (wireEntry (closingAt .sending 15).slc.queue = some closing ∧ (closingAt .sending 15).slc.damageRun = 15 ∧
      outcomePossible .sending (entryBits 4 closing) (.bitError 11) = true ∧ SendOutcome.bitError 11 ≠ .sent ∧
      outcomePossible .sending (entryBits 4 closing) (.damagedEcho [false]) = true) ∧
    (let s := { base with slc := { base.slc with silent := some 412700 } }
     s.phase = .running ∧ s.slc.silent = some 412700 ∧ 412700 ≤ stampAt 0 s) := by decide +kernel

theorem hears_of {s : State} {sender : Station} (h : s.phase = .running ∧ s.slc.lineState ≠ .unsynced ∧ s.slc.role = .none ∧
    sender ≠ stationOf s.ssv.own) : hears s sender := h

theorem witness_HeardFrameMarks :
    hears base 15 ∧ (Payload.noteF 0 3 k120 4).sized = true ∧
      (Payload.noteF 0 3 k120 4).kind ∈ [Kind.describeK, .noteK, .reportK] := ⟨hears_of (by decide), by decide, by decide⟩

theorem witness_FramesNotDispatched :
    (base.phase = .running ∧ base.slc.lineState ≠ .unsynced ∧ base.slc.role = .none) ∧ (wanting []).slc.role ≠ .none ∧
    judgeBits brokenFrame = .damaged ∧ judgeBits dropBits ≠ .damaged ∧
    hears base 1 ∧ frameFits 1 0x1F 0 = false ∧ (Payload.dropF k120).sized = true ∧
    State.reset.phase ≠ .running ∧ ({ base with slc := Slc.reset } : State).slc.lineState = .unsynced ∧
    (∀ a : BitVec 11, fateOf base.ssv.own (fieldBits a ++ []) = none) :=
  ⟨by decide, by decide, by decide +kernel, by decide +kernel, hears_of (by decide), by decide, by decide, by decide,
    by decide, by decide +kernel⟩

/-- An OPEN of chart 1-21 at 120 lpm, tag 3, delay 0, T_peer the stamp: a FREE slot, a chart to evict, or neither. -/
theorem witness_OpenJudgedAndAdopted :
    let heard (s : State) := heardBy 0 1 (.openF ⟨1, 21⟩ 3 1 0) s
    (hears base 1 ∧ hears (filled chart) 1 ∧ hears (filled oldChart) 1) ∧
    2 < (3 : Byte).toNat ∧ rateOfCode (1 : Byte).toNat = some .r120 ∧ (1 : Byte).toNat = (1 : Station).val ∧
    (3 : Byte).toNat = base.ssv.boot.tag ∧ (4 : Byte).toNat ≠ base.ssv.boot.tag ∧ keyHeld base ⟨1, 21⟩ = false ∧
    keyHeld fade k120 = true ∧
    ((∀ j, withdrawCandidate base .r120 412700 j = none) ∧ (∀ j, aliasCandidate base .r120 412700 j = none) ∧
      lowestFree base = some 0 ∧ (findSlot (heard base)).2 = some 0) ∧
    (keyHeld (filled chart) ⟨1, 21⟩ = false ∧ (∀ j, withdrawCandidate (filled chart) .r120 412700 j = none) ∧
      (∀ j, aliasCandidate (filled chart) .r120 412700 j = none) ∧ lowestFree (filled chart) = none ∧
      (findSlot (heard (filled chart))).2 = none) ∧
    (keyHeld (filled oldChart) ⟨1, 21⟩ = false ∧ (∀ j, withdrawCandidate (filled oldChart) .r120 412700 j = none) ∧
      (∀ j, aliasCandidate (filled oldChart) .r120 412700 j = none) ∧ (findSlot (heard (filled oldChart))).2 = some 0) := by
  refine ⟨⟨hears_of (by decide +kernel), hears_of (by decide +kernel), hears_of (by decide +kernel)⟩, ?_⟩
  decide +kernel

theorem witness_OpenWithdraws :
    hears silentSix 0 ∧ rateOfCode (0 : Byte).toNat = some .r60 ∧ (2 : Byte).toNat = silentSix.ssv.boot.tag ∧
    keyHeld silentSix ⟨0, 9⟩ = false ∧ nearestSlot (withdrawCandidate silentSix .r60 20300) = some (2, -1) ∧
    (recordAt (heardBy 0 0 (.openF ⟨0, 9⟩ 2 0 4) silentSix) 2).isSome = true ∧
    silentSix.slc.queue.map (fun e => (e.slot, e.payload)) = [(some 2, .openF ⟨6, 41⟩ 2 0 0)] := by
  refine ⟨hears_of (by decide), ?_⟩
  decide +kernel

theorem witness_OpenRecorded :
    hears (adopted none) 2 ∧ keyHeld (adopted none) ⟨2, 7⟩ = false ∧
    (∀ j, withdrawCandidate (adopted none) .r120 412700 j = none) ∧
    nearestSlot (aliasCandidate (adopted none) .r120 412700) = some (1, -8) ∧
    ((recordAt (heardBy 0 2 (.openF ⟨2, 7⟩ 3 1 0) (adopted none)) 1).map (·.otherKey)) = some none ∧
    ((recordAt (heardBy 0 2 (.openF ⟨2, 7⟩ 3 1 0) (adopted (some ⟨3, 3⟩))) 1).map (·.otherKey)) = some (some ⟨3, 3⟩) := by
  refine ⟨hears_of (by decide), ?_⟩
  decide +kernel

theorem witness_CloseHeard :
    hears fade 1 ∧ reasonOfCode (5 : Byte).toNat = some .silence ∧ 5 < (6 : Byte).toNat ∧ (2048 : BitVec 16).toNat ≤ 2048 ∧
    2048 < (2049 : BitVec 16).toNat ∧ slotOf fade k120 = some 2 ∧ slotOf fade ⟨1, 21⟩ = none ∧
    (recordAt (heardBy 0 1 (.closeF k120 1780 5) fade) 2).map (fun c => (c.state, c.bound)) = some (.live, true) ∧
    (recordAt (heardBy 0 1 (.closeF k120 1780 5) (adopted none)) 1).map (fun c => (c.state, c.bound)) = some (.live, false) ∧
    (let c := { chart with announced := some 1, lineMap := [(0, held 9 20)] }
     recordAt (setChart 0 (some c) base) 0 = some c ∧ c.state = .live ∧ base.ssv.boot.sweepSeconds ≠ 0 ∧
     c.complete base.ssv.boot.poorFloor = true ∧ chart.complete base.ssv.boot.poorFloor = false ∧ oldChart.state ≠ .live ∧
     ({ base with ssv := { base.ssv with boot := { base.ssv.boot with sweepSeconds := 0 } } } : State).ssv.boot.sweepSeconds = 0) := by
  refine ⟨hears_of (by decide), ?_⟩
  decide +kernel

theorem witness_DropFreesHeldSlot :
    hears contest 1 ∧ hears fade 1 ∧ slotOf contest k120 = some 0 ∧ slotOf contest ⟨1, 21⟩ = none ∧
    (recordAt (heardBy 0 1 (.dropF k120) contest) 0).map (·.state) = some .held ∧
    (recordAt (heardBy 0 1 (.dropF k120) fade) 2).map (·.state) = some .live ∧ recordAt fade 2 = some chart := by
  refine ⟨hears_of (by decide), hears_of (by decide), ?_⟩
  decide +kernel

theorem witness_TallyOverwritesColumn :
    hears fade 1 ∧ hears fade 8 ∧ (List.replicate 32 (0 : BitVec 4)).length = 32 ∧ (2016 : BitVec 16).toNat % 32 = 0 ∧
    ¬ ((2048 : BitVec 16).toNat ≤ 2016) ∧ ¬ ((1 : BitVec 16).toNat % 32 = 0) ∧ slotOf fade k120 = some 2 ∧
    slotOf fade ⟨1, 21⟩ = none ∧ stationOf 1 = 1 ∧ columnWf (fade.xen.views[slotTwo])[(1 : Receiver)] := by
  refine ⟨hears_of (by decide), hears_of (by decide), ?_⟩
  decide +kernel

theorem witness_WantAnswered :
    hears contest 11 ∧ (0x0050 : BitVec 16).getLsbD contest.ssv.own.val = true ∧
    (0x0010 : BitVec 16).getLsbD contest.ssv.own.val = false ∧ (1280 : BitVec 16).toNat % 32 = 0 ∧ slotOf contest k120 = some 0 ∧
    (recordAt (heardBy 0 11 (.wantF k120 1280 0x00200400 (List.replicate 32 0) 0x0050) contest) 0).isSome = true ∧
    slotOf contest ⟨1, 21⟩ = none ∧ ¬ ((2048 : BitVec 16).toNat ≤ 2016) := by
  refine ⟨hears_of (by decide), ?_⟩
  decide +kernel

/-- A PENDING entry of code 12 stands against 9 and yields to 10. -/
theorem witness_ClaimsTaken :
    hears contest 4 ∧ hears contest 8 ∧ recordAt contest 0 = some oldChart ∧ slotOf contest k120 = some 0 ∧
    (0x400 : BitVec 32) ≠ 0 ∧
    (let d : Claim := ⟨k120, 1290, 6, some 12, .pending, none⟩
     [d].find? (Claim.isPendingOf k120 (1280 + 10)) = some d ∧ 9 + 3 ≤ d.code.getD 0 ∧ d.code.getD 0 < 10 + 3) ∧
    contest.xen.claims.find? (Claim.isPendingOf k120 (1280 + 10)) = none ∧
    (let e : Claim := ⟨k120, 1290, 4, none, .heard, some 0⟩
     ((List.replicate 64 e).filter (fun c => !(c.state == .heard && c.key == k120 && c.index == 1291 && c.claimant == 4))).length = 64 ∧
     ((List.replicate 64 e).filter (fun c => !(c.state == .heard && c.key == k120 && c.index == 1290 && c.claimant == 4))).length < 64) := by
  refine ⟨hears_of (by decide), hears_of (by decide), ?_⟩
  decide +kernel

def receiving (as : List Assembly) : State := { fade with xen := { fade.xen with assemblies := as } }

theorem witness_LineFragmentsJudged :
    let whose (a : Assembly) : Bool := a.sender == 1 && a.key == k120 && a.index == (622 : BitVec 16).toNat
    let other (n : Nat) : Assembly := { begun 2 (100 + n) with index := n }
    hears fade (stationOf 1) ∧ hears fade 8 ∧ 1 ≤ [(0xFF : Byte)].length ∧ (List.replicate 240 (0xFF : Byte)).length ≤ 240 ∧
    (5 : BitVec 4).toNat ≤ 5 ∧ 5 < (6 : BitVec 4).toNat ∧ (1 : BitVec 4).toNat < (2 : BitVec 4).toNat ∧
    (2047 : BitVec 16).toNat ≤ 2047 ∧ 2047 < (2048 : BitVec 16).toNat ∧ slotOf fade k120 = some 2 ∧ slotOf fade ⟨1, 21⟩ = none ∧
    (receiving [begun 3 412000]).xen.assemblies.any whose = true ∧
    (receiving []).xen.assemblies.any whose = false ∧
    (let s := receiving [other 1, other 0, other 2, other 3, other 4, other 5]
     s.xen.assemblies.any whose = false ∧ s.xen.assemblies.length = 6 ∧ s.xen.assemblies[1]? = some (other 0) ∧
     (∀ a ∈ s.xen.assemblies, (other 0).start ≤ a.start)) ∧
    (receiving []).xen.assemblies.find? whose = none ∧
    (receiving [begun 3 412000]).xen.assemblies.find? whose = some (begun 3 412000) ∧ (begun 3 412000).next + 1 < 3 := by
  refine ⟨hears_of (by decide), hears_of (by decide), ?_⟩
  decide +kernel

theorem witness_LineCompletes :
    hears fade (stationOf 1) ∧ slotOf fade k120 = some 2 ∧ recordAt fade 2 = some chart ∧
    (decodeRuns (List.replicate 75 0xFF)).length = 1200 ∧ (decodeRuns (List.replicate 74 0xFF)).length ≠ 1200 ∧
    (receiving [begun 2 412000]).xen.assemblies.find? (fun a => a.sender == 1 && a.key == k120 && a.index == 622) =
      some (begun 2 412000) ∧ (1 : BitVec 4).toNat = (begun 2 412000).next ∧
    (begun 2 412000).next + 1 = (2 : BitVec 4).toNat := by
  refine ⟨hears_of (by decide), ?_⟩
  decide +kernel

theorem witness_LinkRestartClearsExchange :
    hears fade 1 ∧ (0x0010 : BitVec 16).getLsbD fade.ssv.own.val = true ∧ (0x0020 : BitVec 16).getLsbD fade.ssv.own.val = false :=
  ⟨hears_of (by decide), by decide, by decide⟩

theorem witness_RosterAndAskServed :
    hears asked 7 ∧ hears asked 8 ∧ (15 : Byte).toNat ≤ 15 ∧ ¬ ((16 : Byte).toNat ≤ 15) ∧ (4 : Byte).toNat = asked.ssv.own.val ∧
    (5 : Byte).toNat ≠ asked.ssv.own.val ∧
    [0, 1, 2, 3].filter (fun i : SlotNo => (recordAt asked i).isSome) = [0, 2] ∧
    (recordAt (heardBy 0 7 (.askF 4 1) asked) 2).isSome = true := by
  refine ⟨hears_of (by decide), hears_of (by decide), ?_⟩
  decide +kernel

/-- One millisecond before each timer's time: 412,700 against 412,701, and so on. -/
theorem witness_TimersWaitForTheirTime :
    let s := { fade with
      lcu := { fade.lcu with gainDownEnd := some 412701 }
      lfr := { fade.lfr with state := .phasing, phasingSince := some 392701 }
      slc := { fade.slc with silent := some 412701 }
      xen := { fade.xen with
        tallyDue := 412701
        claims := [⟨k120, 622, 4, some 1, .active, some 412701⟩, ⟨k120, 623, 1, none, .heard, some 412701⟩]
        assemblies := [⟨1, k120, 622, 2, 1, 74, 0, [0xFF], 410701⟩] }
      ssv := { fade.ssv with rosterDue := 412701, minuteDue := 412701, peers := fade.ssv.peers.set 1 (some ⟨262701, none⟩) } }
    let t := setChart 2 (some { chart with bound := false, wantDue := some 412701, lastReference := 292701 }) s
    s.phase = .running ∧ s.lcu.gainDownEnd = some 412701 ∧ stampAt 0 s < 412701 ∧ stampAt 0 s < 392701 + 20000 ∧
    stampAt 0 s < s.xen.tallyDue ∧ stampAt 0 s < s.ssv.rosterDue ∧ stampAt 0 s < s.ssv.minuteDue ∧
    stampAt 0 s < 262701 + 150000 ∧ stampAt 0 s < 410701 + 2000 ∧ stampAt 0 t < 292701 + 120000 ∧
    (s.xen.claims.map (·.expiry)) = [some 412701, some 412701] ∧
    (recordAt s 0 = none ∧ s.ssv.peers[(2 : Station)] = none) ∧
    (State.reset.phase ≠ .running ∧ State.reset.slc.role = .none) := by decide +kernel

def dirtyFade : State := setChart 3 (some { oldChart with dirty := 0x8000000000000001 }) (setChart 2 (some chart) base)

/-- Two dirty blocks, with room for both, and at 31 entries for one. -/
theorem witness_TallyExpiryServesOneSlot :
    (∀ i, (recordAt fade i).all (fun c => c.dirty == 0) = true) ∧
    (dirtyFade.phase = .running ∧ dirtyFade.xen.tallyDue ≤ stampAt 414000000 dirtyFade ∧
      (3 : SlotNo) = dirtyFade.xen.tallyPtr + BitVec.toFin (BitVec.ofNat 2 3) ∧
      (recordAt dirtyFade 3).map (·.dirty) = some 0x8000000000000001 ∧
      (∀ m : Fin 3, (recordAt dirtyFade (dirtyFade.xen.tallyPtr + BitVec.toFin (BitVec.ofNat 2 m.val))).all (fun d => d.dirty == 0) = true)) ∧
    (let full := queued (List.replicate 31 noted) dirtyFade
     full.xen.tallyDue ≤ stampAt 414000000 full ∧ (recordAt full 3).map (·.dirty) = some 0x8000000000000001 ∧
     32 - full.slc.queue.length = 1) := by decide +kernel

theorem witness_WantTimerExpires :
    recordAt fade 2 = some chart ∧ chart.wantDue = some 412700 ∧ 412700 ≤ stampAt 0 fade ∧ chart.state = .live ∧
    (setOpenReq 2 .owed fade).xen.openReq[slotTwo] = .owed ∧ fade.xen.openReq[slotTwo] ≠ .owed ∧
    wanted fade 2 chart (32 * 19 + 14) = true ∧ blockAddress fade 2 chart 19 ≠ 0 ∧
    (List.range 2048).all (fun j => j == 622 || !wanted fade 2 chart j) = true ∧
    (List.range 2048).all (fun j => !wanted (setChart 2 (some chart) base) 2 chart j) = true := by decide +kernel

theorem witness_WantedLinesAndStations :
    wanted fade 2 chart 622 = true ∧ ownCode chart 622 + 2 ≤ peerCode fade 2 1 622 ∧ wanted fade 2 chart 621 = false ∧
    (8 : Nat) ≤ 8 := by decide +kernel

theorem witness_SweepAndSilenceEnd :
    let c := { chart with state := .sweep, bound := false, sweepDeadline := some 412700 }
    let d := { chart with bound := false, lastReference := 292700 }
    (recordAt (setChart 2 (some c) base) 2 = some c ∧ c.state = .sweep ∧ c.sweepDeadline = some 412700 ∧ 412700 ≤ stampAt 0 base ∧
      base.ssv.boot.sweepEnd = .stop ∧
      ({ base with ssv := { base.ssv with boot := { base.ssv.boot with sweepEnd := .keep } } } : State).ssv.boot.sweepEnd = .keep) ∧
    (recordAt (setChart 2 (some d) base) 2 = some d ∧ d.state = .live ∧ d.bound = false ∧
      d.lastReference + 120000 ≤ stampAt 0 base ∧ base.ssv.boot.sweepSeconds ≠ 0 ∧
      ({ base with ssv := { base.ssv with boot := { base.ssv.boot with sweepSeconds := 0 } } } : State).ssv.boot.sweepSeconds = 0) := by
  decide +kernel

theorem witness_EntriesLapse :
    (let d : Claim := ⟨k120, 622, 4, some 1, .active, some 412700⟩
     [d].find? (fun c => c.state == .active && c.key == k120 && c.index == 622) = some d ∧ d.expiry = some 412700) ∧
    (let d : Claim := ⟨k120, 622, 1, none, .heard, some 412700⟩
     [d].find? (fun c => c.state == .heard && c.key == k120 && c.index == 622 && c.claimant == 1) = some d ∧
       d.expiry = some 412700) ∧
    (412700 ≤ stampAt 0 base) ∧
    ([begun 2 410700].find? (fun x => x.sender == 1 && x.key == k120 && x.index == 622) = some (begun 2 410700) ∧
      (begun 2 410700).start + 2000 ≤ stampAt 0 base) ∧
    (fade.phase = .running ∧ fade.ssv.peers[(1 : Station)] = some ⟨412000, some (.receiver, 3)⟩ ∧
      412000 + 150000 ≤ stampAt 562000000 fade) := by decide +kernel


theorem witness_RosterAndReportQueued :
    base.phase = .running ∧ base.ssv.rosterDue ≤ stampAt 421000000 base ∧ base.ssv.minuteDue ≤ stampAt 420000000 base := by
  decide

/-- A part that runs, with nothing received yet. -/
def awake : State := { State.reset with phase := .running }

theorem witness_invariants_step : step awake = .next (idleStep awake) := rfl

theorem awake_views (i : SlotNo) (r : Receiver) : (awake.xen.views[i])[r] = [] := by revert i r; decide +kernel

theorem witness_StepKeepsBounds : Bounded awake ∧ Viewed awake := by
  refine ⟨⟨by decide, by decide, by decide, by decide, by decide, by decide, by decide, by decide +kernel, nofun, nofun, nofun⟩,
    fun i r => ?_⟩
  rw [awake_views]
  exact ⟨by decide, by simp⟩

theorem witness_StepKeepsConditioning : Conditioned awake.lcu :=
  ⟨by decide, by decide, by decide, by decide, by decide, by decide, by decide, by decide, by decide, by decide, by decide,
    by decide, by decide, ⟨by decide, by decide, by decide⟩, ⟨by decide, by decide, by decide⟩⟩

theorem awake_slots (i : SlotNo) : recordAt awake i = none := by revert i; decide +kernel

theorem witness_StepAccountsForPages : Stored awake where
  pool := by decide
  pages := by
    have h : heldPages awake = [] := by simp [heldPages, awake_slots]
    rw [h, List.append_nil, List.range_eq_range']
    exact List.Perm.refl _
  charts := by simp [awake_slots]
  boot := by simp [awake_slots]

theorem witness_StepKeepsBinding : Bindings awake := by simp [Bindings, awake_slots]

theorem witness_StepKeepsKeysDistinct : KeysDistinct awake := by simp [KeysDistinct, awake_slots]

theorem witness_StepKeepsWire : Wired awake.slc ∧ OffTheLine State.reset ∧ State.reset.phase ≠ .running :=
  ⟨⟨by decide, by decide, by decide, by decide⟩, fun _ => by decide, by decide⟩

/-- Line 622 of chart 1-20 built into two fragments, line 623 won and waiting on the build list. -/
def tracking : State :=
  let won (j : Nat) : Claim := ⟨k120, j, 4, some 1, .active, some 414700⟩
  { fade with
    xen := { fade.xen with claims := [won 622, won 623], build := [⟨k120, 623⟩] }
    slc := { fade.slc with queue :=
      [newEntry (.lineF k120 622 2 0 74 0 [0xFF]) .xen, newEntry (.lineF k120 622 2 1 74 0 [0xFF]) .xen] } }

theorem witness_StepKeepsTransfers : Bounded tracking ∧ Wired tracking.slc ∧ Tracked tracking := by
  refine ⟨⟨by decide, by decide, by decide, by decide, by decide, by decide, by decide, by decide +kernel, nofun, nofun, nofun⟩,
    ⟨by decide, by decide, by decide, by decide⟩,
    ⟨by decide, fun c hc => ⟨2, chart, by decide +kernel, ?_⟩, by decide, by decide, by decide, by decide, by decide, fun e he k j h => ?_,
      by simp [tracking, newEntry, Entry.isLastFragment], by decide, by simp [tracking, newEntry]⟩⟩
  · revert c; decide
  · have hk : k120 = k ∧ 622 = j := by
      simp only [tracking, List.mem_cons, List.not_mem_nil, or_false] at he
      rcases he with rfl | rfl <;> simpa [newEntry, Entry.isFragmentOf] using h
    obtain ⟨rfl, rfl⟩ := hk
    exact ⟨by decide, by decide, Or.inl (by decide)⟩

end Sys2Proof.Tests
end

/-! Proofs for chapter 1, the level port and signal conditioning, with the reset of the part. -/

namespace Sys2Proof.Machine

/-! ## RESET (R169) -/

/-- Settles O4: after the pin low every field is one that `State.reset` names, but the waiting commands and the
pages; the release is the one branch that RESETN alone decides. -/
theorem resetPinTakesEffect : Obligations.ResetPinTakesEffect := by
  refine ⟨fun s => ⟨enterReset s, rfl, rfl, rfl, rfl, rfl, rfl, rfl, ?free, rfl, ?slots, rfl, rfl, ?views, ?requests,
    rfl, rfl, rfl, rfl, rfl, rfl, ?counters, ?peers, rfl, rfl, rfl, rfl, rfl, rfl, rfl, rfl⟩,
    fun s straps m => ⟨fun h => ?released, fun h => ?notInReset⟩⟩
  case free => exact List.range_eq_range'.symm
  case slots => intro i; simp [recordAt, enterReset, Cst.reset]
  case views => intro i r; simp [enterReset, State.reset, Xen.reset, PeerView.empty]
  case requests => intro i; simp [enterReset, State.reset, Xen.reset]
  case counters => intro n; simp [enterReset, State.reset, Ssv.reset]
  case peers => intro st; simp [enterReset, State.reset, Ssv.reset]
  case released => simp [exec, execReset, h, beginBoot]
  case notInReset => simp [exec, execReset, h]

/-! ## The level word and its hand-off (R1, R2, R182) -/

theorem readLevelWord_level (bits : BitVec 16) : (readLevelWord bits).level = bits.toNat / 256 := by
  simp only [readLevelWord, BitVec.extractLsb'_toNat, Nat.shiftRight_eq_div_pow]
  omega

theorem readLevelWord_strength (bits : BitVec 16) : (readLevelWord bits).strength = bits.toNat / 4 % 64 := by
  simp only [readLevelWord, BitVec.extractLsb'_toNat, Nat.shiftRight_eq_div_pow]

theorem readLevelWord_overload (bits : BitVec 16) :
    (readLevelWord bits).overload = decide (bits.toNat / 2 % 2 = 1) := by
  simp [readLevelWord, BitVec.getLsbD, Nat.testBit_eq_decide_div_mod_eq]

theorem readLevelWord_valid (bits : BitVec 16) : (readLevelWord bits).valid = decide (bits.toNat % 2 = 1) := by
  simp [readLevelWord, BitVec.getLsbD, Nat.testBit_eq_decide_div_mod_eq]

/-- The word handed to the framer, in the numbers of the word's sixteen bits (R2, R182). -/
theorem handOff_eq (bits : BitVec 16) (l : Lcu) : handOff bits l =
    { pos := l.wordPos, level := (max 0 (min 255 ((bits.toNat / 256 : Nat) - l.offset))).toNat,
      strength := bits.toNat / 4 % 64, valid := decide (bits.toNat % 2 = 1),
      overload := decide (bits.toNat / 2 % 2 = 1) } := by
  simp only [handOff, correctLevel, readLevelWord_level, readLevelWord_strength, readLevelWord_overload,
    readLevelWord_valid]

theorem handOff_level_le (bits : BitVec 16) (l : Lcu) : (handOff bits l).level ≤ 255 := by
  simp only [handOff_eq]; omega

theorem handOff_strength_le (bits : BitVec 16) (l : Lcu) : (handOff bits l).strength ≤ 63 := by
  simp only [handOff_eq]; omega

/-! ## The tuning loop case by case (R7 to R10) -/

/-- The jump run an eligible window leaves when it brings no reset (R8). -/
def nextJumpRun (a : WindowAcc) (l : Lcu) : Nat := if windowFar a.brightMean then l.jumpRun + 1 else 0

section
variable {b : BootFields} {a : WindowAcc} {l : Lcu}

theorem tuneWindow_off (hon : b.tuningOn = false) : tuneWindow b a l = (l, none) := by
  simp [tuneWindow, hon]

/-- A window consumes a blanking count if there is one; truncated subtraction covers both. -/
theorem consumeBlank_eq (l : Lcu) :
    consumeBlank (decide (l.tuningBlank ≠ 0)) l = { l with tuningBlank := l.tuningBlank - 1 } := by
  by_cases h : l.tuningBlank = 0
  · obtain ⟨⟩ := l; simp_all [consumeBlank]
  · simp [consumeBlank, h]

theorem tuneWindow_ineligible (hon : b.tuningOn = true) (he : tuningEligible b.fadeThreshold a = false) :
    tuneWindow b a l = ({ l with jumpRun := 0, tuningBlank := l.tuningBlank - 1 }, none) := by
  simpa [tuneWindow, hon, he] using consumeBlank_eq { l with jumpRun := 0 }

theorem tuneWindow_jumpReset (hon : b.tuningOn = true) (he : tuningEligible b.fadeThreshold a = true)
    (hr : 4 ≤ nextJumpRun a l) :
    tuneWindow b a l = ({ l with offset := 0, tuningBlank := 2, jumpRun := 0 }, some l.offset) := by
  unfold nextJumpRun at hr
  simp only [tuneWindow, hon, he, hr, Bool.not_true, Bool.false_eq_true, if_true, if_false]

theorem tuneWindow_blanking (hon : b.tuningOn = true) (he : tuningEligible b.fadeThreshold a = true)
    (hr : nextJumpRun a l < 4) (hb : l.tuningBlank ≠ 0) :
    tuneWindow b a l = ({ l with jumpRun := nextJumpRun a l, tuningBlank := l.tuningBlank - 1 }, none) := by
  unfold nextJumpRun at hr ⊢
  simp [tuneWindow, hon, he, Nat.not_le.mpr hr, hb, consumeBlank]

theorem tuneWindow_step (hon : b.tuningOn = true) (he : tuningEligible b.fadeThreshold a = true)
    (hr : nextJumpRun a l < 4) (hb : l.tuningBlank = 0) :
    tuneWindow b a l = (tuningStep a.brightMean { l with jumpRun := nextJumpRun a l }, none) := by
  unfold nextJumpRun at hr ⊢
  simp [tuneWindow, hon, he, Nat.not_le.mpr hr, hb, consumeBlank]

/-- All that the tuning loop can make of a window (R7 to R9). -/
theorem tuneWindow_cases (b : BootFields) (a : WindowAcc) (l : Lcu) :
    tuneWindow b a l = (l, none) ∨
    tuneWindow b a l = ({ l with jumpRun := 0, tuningBlank := l.tuningBlank - 1 }, none) ∨
    tuneWindow b a l = ({ l with offset := 0, tuningBlank := 2, jumpRun := 0 }, some l.offset) ∨
    nextJumpRun a l < 4 ∧
      (tuneWindow b a l = ({ l with jumpRun := nextJumpRun a l, tuningBlank := l.tuningBlank - 1 }, none) ∨
       tuneWindow b a l = (tuningStep a.brightMean { l with jumpRun := nextJumpRun a l }, none)) := by
  cases hon : b.tuningOn with
  | false => exact .inl (tuneWindow_off hon)
  | true =>
    cases he : tuningEligible b.fadeThreshold a with
    | false => exact .inr (.inl (tuneWindow_ineligible hon he))
    | true =>
      rcases Nat.lt_or_ge (nextJumpRun a l) 4 with hr | hr
      · refine .inr (.inr (.inr ⟨hr, ?_⟩))
        by_cases hb : l.tuningBlank = 0
        · exact .inr (tuneWindow_step hon he hr hb)
        · exact .inl (tuneWindow_blanking hon he hr hb)
      · exact .inr (.inr (.inl (tuneWindow_jumpReset hon he hr)))

/-- Above the band the offset rises by 2 up to +48 (R9). -/
theorem tuningStep_high {wt : Nat} (hw : 246 < wt) : tuningStep wt l =
    { l with status := .high, offset := min 48 (l.offset + 2),
             tuningBlank := if min 48 (l.offset + 2) = l.offset then l.tuningBlank else 2 } := by
  simp only [tuningStep, if_pos hw]

theorem tuningStep_inBand {wt : Nat} (hlow : 234 ≤ wt) (hhigh : wt ≤ 246) :
    tuningStep wt l = { l with status := .inBand } := by
  simp only [tuningStep, if_neg (Nat.not_lt.mpr hlow), if_neg (Nat.not_lt.mpr hhigh), if_true]

/-- Below the band the offset falls by 2 down to −48 (R9). -/
theorem tuningStep_low {wt : Nat} (hw : wt < 234) : tuningStep wt l =
    { l with status := .low, offset := max (-48) (l.offset - 2),
             tuningBlank := if max (-48) (l.offset - 2) = l.offset then l.tuningBlank else 2 } := by
  simp only [tuningStep, if_pos hw, if_neg (show ¬ 246 < wt by omega)]

/-- Eligibility in the three figures of a window (R6, R7). -/
theorem tuningEligible_iff {threshold : Nat} : tuningEligible threshold a = true ↔
    ¬ (a.meanStrength < threshold) ∧ 600 ≤ a.usable ∧ 600 ≤ a.brightCount := by
  simp [tuningEligible, fadeVerdict, and_assoc]

end

/-! ## The pattern runs (R14) -/

section
variable {p : PatternRun} {first : Position}

/-- Only a run of 8 is confirmed. -/
theorem PatternRun.Sound.unconfirmed (h : p.Sound) (hp : p.run ≠ 8) : p.confirmed = false :=
  Bool.eq_false_iff.mpr fun hc => hp (h.confirmed.mp hc)

theorem patternWindow_unmatched : patternWindow false first p = (⟨0, none, false⟩, false) := rfl

theorem patternWindow_begins (h : p.Sound) (hp : p.run = 0) :
    patternWindow true first p = (⟨1, some first, false⟩, false) := by
  have hc := h.unconfirmed (by omega)
  simp [patternWindow, hp, hc]

theorem patternWindow_rises (h : p.Sound) (h1 : 1 ≤ p.run) (h6 : p.run ≤ 6) :
    patternWindow true first p = (⟨p.run + 1, p.first, false⟩, false) := by
  have hc := h.unconfirmed (by omega)
  have h0 : p.run ≠ 0 := by omega
  have h8 : min 8 (p.run + 1) = p.run + 1 := by omega
  have h7 : p.run ≠ 7 := by omega
  simp [patternWindow, hc, h0, h8, h7]

theorem patternWindow_confirms (h : p.Sound) (h7 : p.run = 7) :
    patternWindow true first p = (⟨8, p.first, true⟩, true) := by
  have hc := h.unconfirmed (by omega)
  simp [patternWindow, hc, h7]

theorem patternWindow_stays (h : p.Sound) (h8 : p.run = 8) : patternWindow true first p = (p, false) := by
  have hc : p.confirmed = true := h.confirmed.mpr h8
  obtain ⟨run, first', confirmed⟩ := p
  simp only at h8 hc
  subst h8 hc
  rfl

/-- A run keeps its form at every window close, whatever the window's verdict (R14). -/
theorem patternWindow_sound (matched : Bool) (first : Position) (h : p.Sound) :
    (patternWindow matched first p).1.Sound := by
  have hrun := h.run
  cases matched with
  | false => rw [patternWindow_unmatched]; exact ⟨by simp, by simp, by simp⟩
  | true =>
    have hfirst (h0 : p.run ≠ 0) : p.first ≠ none := fun hn => h0 (h.first.mpr hn)
    rcases (show p.run = 0 ∨ (1 ≤ p.run ∧ p.run ≤ 6) ∨ p.run = 7 ∨ p.run = 8 by omega) with h0 | ⟨h1, h6⟩ | h7 | h8
    · rw [patternWindow_begins h h0]; exact ⟨by simp, by simp, by simp⟩
    · rw [patternWindow_rises h h1 h6]
      exact ⟨by simp; omega, by simp [hfirst (by omega)], by simp; omega⟩
    · rw [patternWindow_confirms h h7]; exact ⟨by simp, by simp [hfirst (by omega)], by simp⟩
    · rw [patternWindow_stays h h8]; exact h

end

/-- Settles O10: each clause is the spec lemma of its case. -/
theorem windowVerdictsStep : Obligations.WindowVerdictsStep := by
  refine ⟨fun b a l => ?tuning, fun p first h => ⟨patternWindow_unmatched, patternWindow_begins h,
    patternWindow_rises h, patternWindow_confirms h, patternWindow_stays h⟩⟩
  case tuning =>
    intro eligible far run
    have hrun : run = nextJumpRun a l := by
      simp only [run, far, nextJumpRun, windowFar, decide_eq_true_eq]
    have helig : eligible → tuningEligible b.fadeThreshold a = true := tuningEligible_iff.mpr
    have step (hon : b.tuningOn = true) (he : eligible) (hr : run < 4) (hb : l.tuningBlank = 0) :
        tuneWindow b a l = (tuningStep a.brightMean { l with jumpRun := run }, none) := by
      rw [hrun] at hr ⊢; exact tuneWindow_step hon (helig he) hr hb
    refine ⟨tuneWindow_off, fun hon he => ?_, fun hon he hr => ?_, fun hon he hr hb => ?_,
      fun hon he hr hb hw => ?_, fun hon he hr hb hlow hhigh => ?_, fun hon he hr hb hw => ?_⟩
    · exact tuneWindow_ineligible hon (Bool.eq_false_iff.mpr fun h => he (tuningEligible_iff.mp h))
    · exact tuneWindow_jumpReset hon (helig he) (hrun ▸ hr)
    · rw [hrun] at hr ⊢; exact tuneWindow_blanking hon (helig he) hr hb
    · rw [step hon he hr hb, tuningStep_high hw, hb]
    · rw [step hon he hr hb, tuningStep_inBand hlow hhigh]
    · rw [step hon he hr hb, tuningStep_low hw, hb]

/-! ## The level port's timed events (R1, R12, R26) -/

/-- A running part has reached a time when the event's stamp has. -/
theorem reached_advanced {s : State} {t e : Nat} {due : Option Nat} (h : s.phase = .running) (hd : due = some e)
    (he : e ≤ stampAt t s) : reached due { s with clock := max s.clock t } = true := by
  subst hd
  simp only [reached, isDue, Bool.and_eq_true, beq_iff_eq, decide_eq_true_eq]
  exact ⟨h, he⟩

/-- Settles O11. -/
theorem levelPortTimesEnd : Obligations.LevelPortTimesEnd := by
  refine ⟨fun s t => rfl, fun s t e h hg he => ?gainDown, fun s t p h hp hs he => ?phasing⟩
  case gainDown =>
    simp [exec, execGainDownEnd, advance_running s t h, reached_advanced h hg he, setLcu]
  case phasing =>
    have hd : s.lfr.phasingSince.map (· + Config.phasingMs) = some (p + 20000) := by rw [hs]; rfl
    simp [exec, execPhasingTimeout, advance_running s t h, phasingOver, hp, reached_advanced h hd he, setLfr,
      returnToIdle]

/-! ## Taking a word (R1 to R4) -/

/-- In reset and boot no word is taken, however it is marked (R1). -/
theorem exec_levelWord_stopped {s : State} (h : s.phase ≠ .running) (t : Nat) (word : MarkedWord) :
    exec (.levelWord t word) s = .next s := by
  simp [exec, execLevelWord, advance_stopped s t h, h]

theorem exec_levelWord_early {s : State} (h : s.phase = .running) (t : Nat) (bits : BitVec 16) :
    exec (.levelWord t ⟨.beforeEndOfBoot, bits⟩) s = .next { s with clock := max s.clock t } := by
  simp [exec, execLevelWord, advance_running s t h]

theorem exec_levelWord_taken {s : State} (h : s.phase = .running) (t : Nat) (bits : BitVec 16) :
    exec (.levelWord t ⟨.afterEndOfBoot, bits⟩) s = .next (takeWord bits { s with clock := max s.clock t }) := by
  simp [exec, execLevelWord, advance_running s t h, h]

/-- A crossing is a change of the detector that does not begin at UNSET (R3). -/
theorem isCrossing_eq (before after : Crossing) :
    isCrossing before after = decide (before ≠ .unset ∧ after ≠ before) := by
  cases before <;> cases after <;> rfl

section
variable {bits : BitVec 16} {s : State}

/-- A word inside its window ends with the framer's part. -/
theorem takeWord_inside (h : s.lcu.windowCount + 1 < 1200) :
    takeWord bits s = framerWord (handOff bits s.lcu) (setLcu (lcuWord (handOff bits s.lcu) s.lcu) s) := by
  simp only [takeWord, framerWord_keeps, setLcu_lcu]
  exact if_neg (Nat.not_le.mpr h)

/-- The 1,200th word closes the window behind the framer's part; the first word lies 1,199 before it. -/
theorem takeWord_closing (h : 1200 ≤ s.lcu.windowCount + 1) :
    takeWord bits s = closeWindow (s.lcu.wordPos - 1199)
      (framerWord (handOff bits s.lcu) (setLcu (lcuWord (handOff bits s.lcu) s.lcu) s)) := by
  simp only [takeWord, framerWord_keeps, setLcu_lcu]
  exact if_pos h

end

/-- Settles O8: the hand-off by `handOff_eq`, the LCU's part by the model's own branches in the word's numbers. -/
theorem windowAccumulates : Obligations.WindowAccumulates := by
  intro s t bits level valid overload usable crossing w l
  have hw : w = ⟨s.lcu.wordPos, level, bits.toNat / 4 % 64, decide valid, decide overload⟩ := handOff_eq bits s.lcu
  have husable : w.usable = decide usable := by simp [hw, HeardWord.usable, usable]
  have hcrossing : (if w.valid then nextCrossing w.level s.lcu.crossing else s.lcu.crossing) = crossing := by
    by_cases hv : valid <;> simp [hw, hv, nextCrossing, crossing]
  refine ⟨hw, ?lcu, fun h hc => ?inside⟩
  case lcu =>
    simp only [l, lcuWord, hcrossing, isCrossing_eq, accumulate, husable]
    simp only [hw, decide_eq_true_eq, Bool.and_eq_true, add_ite, Nat.add_zero]
  case inside => exact (exec_levelWord_taken h t bits).trans (congrArg _ (takeWord_inside hc))

/-! ## The close of a window (R4 to R14) -/

/-- Whether the clip monitor counts and reports a window of this overload count (R11). -/
def clipFires (b : BootFields) (overload blank : Nat) : Bool :=
  decide (b.clipMode ≠ .none ∧ 24 ≤ overload ∧ (b.clipMode = .act → blank = 0))

/-- A pattern's run after a window of this crossing count, and whether it is confirmed (R13, R14). -/
def toneRun (rate crossings : Nat) (first : Position) (p : PatternRun) : PatternRun × Bool :=
  patternWindow (patternMatches rate crossings) first p

/-- The clip monitor's part of the LCU at a window close: a pulse, a blanking count consumed, or neither; `fires` says
whether it counts the window (R11, R12). -/
def clippedLcu (b : BootFields) (fires : Bool) (now : Nat) (l : Lcu) : Lcu :=
  { l with
    clipBlank := if b.clipMode = .act then if fires then 4 else l.clipBlank - 1 else l.clipBlank
    gdn := if fires ∧ b.clipMode = .act then true else l.gdn
    gainDownEnd := if fires ∧ b.clipMode = .act then some (now + 20) else l.gainDownEnd }

/-- The LCU behind the close of the window that `l` holds: the tuning loop's fields, the clip monitor's, the patterns',
and accumulators and count at 0. -/
def closedLcu (b : BootFields) (now : Nat) (first : Position) (l : Lcu) : Lcu :=
  { clippedLcu b (clipFires b l.acc.overload l.clipBlank) now (tuneWindow b l.acc l).1 with
    windowCount := 0
    acc := .zero
    start := (toneRun b.startRate l.acc.crossings first l.start).1
    stop := (toneRun b.stopRate l.acc.crossings first l.stop).1 }

/-- Counter 15 counts a faded window (R6). -/
def countFaded (b : BootFields) (a : WindowAcc) (s : State) : State :=
  if fadeVerdict b.fadeThreshold a then bump 15 1 s else s

/-- NOTE class 8 of a jump reset, with the offset before it (R8). -/
def noteReset (offset : Option Int) (s : State) : State :=
  match offset with
  | none => s
  | some o => raiseNote 8 none (BitVec.ofInt 16 o) s

/-- Counter 14 and NOTE class 7 of a window the clip monitor counts (R11). -/
def markClipped (b : BootFields) (a : WindowAcc) (blank : Nat) (s : State) : State :=
  if clipFires b a.overload blank then reportClipped a s else s

/-- What the close of the window that `l` holds leaves outside LCU and framer: counter 15, NOTE class 8, counter 14
with NOTE class 7, in this order. -/
def windowMarks (b : BootFields) (l : Lcu) (s : State) : State :=
  markClipped b l.acc l.clipBlank (noteReset (tuneWindow b l.acc l).2 (countFaded b l.acc s))

/-- The report of the window that `l` holds (R5, R14). -/
def windowReport (b : BootFields) (first : Position) (l : Lcu) : WindowReport :=
  let start := toneRun b.startRate l.acc.crossings first l.start
  let stop := toneRun b.stopRate l.acc.crossings first l.stop
  ⟨first.toNat / 1200, fadeVerdict b.fadeThreshold l.acc, if start.2 then start.1.first else none,
    if stop.2 then stop.1.first else none⟩

/-! ### Marks and the LCU move independently -/

@[simp] theorem setLcu_setLcu (l m : Lcu) (s : State) : setLcu l (setLcu m s) = setLcu l s := rfl

theorem enqueue_setLcu (e : Entry) (l : Lcu) (s : State) :
    enqueue e (setLcu l s) = (setLcu l (enqueue e s).1, (enqueue e s).2) := by
  unfold enqueue
  rw [setLcu_slc]
  cases queueTakes s.slc.queue e.payload <;> rfl

theorem raiseNote_setLcu (n : Nat) (k : Option Key) (d : BitVec 16) (l : Lcu) (s : State) :
    raiseNote n k d (setLcu l s) = setLcu l (raiseNote n k d s) := by
  simp only [raiseNote, setLcu_ssv, enqueue_setLcu]
  split_ifs <;> rfl

theorem reportClipped_setLcu (a : WindowAcc) (l : Lcu) (s : State) :
    reportClipped a (setLcu l s) = setLcu l (reportClipped a s) :=
  raiseNote_setLcu 7 none (BitVec.ofNat 16 a.overload) l (bump 14 1 s)

theorem countFaded_setLcu (b : BootFields) (a : WindowAcc) (l : Lcu) (s : State) :
    countFaded b a (setLcu l s) = setLcu l (countFaded b a s) := by
  unfold countFaded
  split_ifs <;> rfl

theorem noteReset_setLcu (o : Option Int) (l : Lcu) (s : State) :
    noteReset o (setLcu l s) = setLcu l (noteReset o s) := by
  cases o with
  | none => rfl
  | some o => exact raiseNote_setLcu 8 none (BitVec.ofInt 16 o) l s

section
variable (b : BootFields) (a : WindowAcc) (o : Option Int) (s : State)

@[simp] theorem countFaded_keeps :
    (countFaded b a s).clock = s.clock ∧ (countFaded b a s).lcu = s.lcu ∧ (countFaded b a s).lfr = s.lfr ∧
    (countFaded b a s).ssv.boot = s.ssv.boot := by
  unfold countFaded; split_ifs <;> simp

@[simp] theorem noteReset_keeps :
    (noteReset o s).clock = s.clock ∧ (noteReset o s).lcu = s.lcu ∧ (noteReset o s).lfr = s.lfr ∧
    (noteReset o s).ssv.boot = s.ssv.boot := by
  cases o <;> simp [noteReset]

@[simp] theorem markClipped_keeps (blank : Nat) :
    (markClipped b a blank s).clock = s.clock ∧ (markClipped b a blank s).lcu = s.lcu ∧
    (markClipped b a blank s).lfr = s.lfr ∧ (markClipped b a blank s).ssv.boot = s.ssv.boot := by
  unfold markClipped; split_ifs <;> simp

end

/-! ### The acts of the close -/

/-- The tuning loop leaves word position, crossing detector, clip monitor, GDN and patterns alone. -/
@[simp] theorem tuneWindow_keeps (b : BootFields) (a : WindowAcc) (l : Lcu) :
    (tuneWindow b a l).1.wordPos = l.wordPos ∧ (tuneWindow b a l).1.crossing = l.crossing ∧
    (tuneWindow b a l).1.clipBlank = l.clipBlank ∧ (tuneWindow b a l).1.gdn = l.gdn ∧
    (tuneWindow b a l).1.gainDownEnd = l.gainDownEnd ∧ (tuneWindow b a l).1.start = l.start ∧
    (tuneWindow b a l).1.stop = l.stop := by
  rcases tuneWindow_cases b a l with h | h | h | ⟨_, h | h⟩ <;> simp [h, tuningStep]

/-- The tuning loop reads the window it is given, not the count and accumulators of the LCU it moves. -/
theorem tuneWindow_cleared (b : BootFields) (a : WindowAcc) (l : Lcu) (acc : WindowAcc) (n : Nat) :
    tuneWindow b a { l with acc := acc, windowCount := n } =
      ({ (tuneWindow b a l).1 with acc := acc, windowCount := n }, (tuneWindow b a l).2) := by
  simp only [tuneWindow, consumeBlank, tuningStep]
  split_ifs <;> rfl

theorem closeTuning_setLcu {b : BootFields} {s : State} (hboot : s.ssv.boot = b) (a : WindowAcc) (l : Lcu) :
    closeTuning a (setLcu l s) = setLcu (tuneWindow b a l).1 (noteReset (tuneWindow b a l).2 s) := by
  subst hboot
  rw [← noteReset_setLcu]
  rfl

section
variable {a : WindowAcc} {l : Lcu} {s : State}

/-- A window the clip monitor does not count: with ACT a blanking count is consumed if there is one (R11). -/
theorem clipWindow_quiet (h : clipFires s.ssv.boot a.overload l.clipBlank = false) :
    clipWindow a (setLcu l s) = setLcu { l with
      clipBlank := if s.ssv.boot.clipMode = .act then l.clipBlank - 1 else l.clipBlank } s := by
  cases hm : s.ssv.boot.clipMode with
  | none => simp [clipWindow, hm]
  | report =>
    have hc : windowClipped a = false := by simpa [clipFires, hm, windowClipped] using h
    simp [clipWindow, hm, hc]
  | act =>
    by_cases hb : l.clipBlank = 0
    · have hc : windowClipped a = false := by simpa [clipFires, hm, hb, windowClipped] using h
      have hl : { l with clipBlank := 0 } = l := hb ▸ rfl
      simp [clipWindow, hm, hb, hc, hl]
    · simp [clipWindow, hm, hb]

/-- A window counted with REPORT is counted and noted, and the LCU stays (R11). -/
theorem clipWindow_reports (hm : s.ssv.boot.clipMode = .report) (hc : 24 ≤ a.overload) :
    clipWindow a (setLcu l s) = setLcu l (reportClipped a s) := by
  simp [clipWindow, hm, windowClipped, hc, reportClipped_setLcu]

/-- With ACT and no blanking a clipped window is counted and pulses GDN, and four windows of blanking begin (R11, R12). -/
theorem clipWindow_pulses (hm : s.ssv.boot.clipMode = .act) (hb : l.clipBlank = 0) (hc : 24 ≤ a.overload) :
    clipWindow a (setLcu l s) = setLcu { l with clipBlank := 4, gdn := true, gainDownEnd := some (s.now + 20) }
      (reportClipped a s) := by
  simp [clipWindow, hm, hb, windowClipped, hc, reportClipped_setLcu, gainDownPulse, State.now, Config.gainDownMs]

/-- The clip monitor, its cases in one (R11, R12). -/
theorem clipWindow_setLcu {b : BootFields} {now blank : Nat} (hboot : s.ssv.boot = b) (hnow : s.now = now)
    (hblank : l.clipBlank = blank) (a : WindowAcc) : clipWindow a (setLcu l s) =
      setLcu (clippedLcu b (clipFires b a.overload blank) now l) (markClipped b a blank s) := by
  subst hboot hnow hblank
  unfold clippedLcu markClipped
  cases h : clipFires s.ssv.boot a.overload l.clipBlank with
  | true =>
    obtain ⟨hm, hc, hb⟩ := of_decide_eq_true h
    by_cases hact : s.ssv.boot.clipMode = .act
    · simp [clipWindow_pulses hact (hb hact) hc, hact]
    · have hreport : s.ssv.boot.clipMode = .report := by
        cases hm' : s.ssv.boot.clipMode <;> simp_all
      simp [clipWindow_reports hreport hc, hact]
  | false => simp [clipWindow_quiet h]

end

/-- Tuning loop and clip monitor on a window that has just been cleared from the LCU. -/
theorem clipWindow_closeTuning (s : State) :
    clipWindow s.lcu.acc (closeTuning s.lcu.acc
      (setLcu { s.lcu with acc := .zero, windowCount := 0 } (countFaded s.ssv.boot s.lcu.acc s))) =
    setLcu { clippedLcu s.ssv.boot (clipFires s.ssv.boot s.lcu.acc.overload s.lcu.clipBlank) s.now
        (tuneWindow s.ssv.boot s.lcu.acc s.lcu).1 with acc := .zero, windowCount := 0 }
      (windowMarks s.ssv.boot s.lcu s) := by
  rw [closeTuning_setLcu (b := s.ssv.boot) (by simp), tuneWindow_cleared,
    clipWindow_setLcu (b := s.ssv.boot) (now := s.now) (blank := s.lcu.clipBlank) (by simp) (by simp [State.now])
      (by simp)]
  rfl

/-- The last act of a window close: both patterns take the crossings and the framer gets the report (R5, R14). -/
def closePatterns (first : Position) (a : WindowAcc) (faded : Bool) (s : State) : State :=
  let start := toneRun s.ssv.boot.startRate a.crossings first s.lcu.start
  let stop := toneRun s.ssv.boot.stopRate a.crossings first s.lcu.stop
  framerReport
    ⟨first.toNat / 1200, faded, if start.2 then start.1.first else none, if stop.2 then stop.1.first else none⟩
    (setLcu { s.lcu with start := start.1, stop := stop.1 } s)

theorem closePatterns_setLcu {s : State} {b : BootFields} {l m : Lcu} {first : Position} (hboot : s.ssv.boot = b)
    (hstart : m.start = l.start) (hstop : m.stop = l.stop) :
    closePatterns first l.acc (fadeVerdict b.fadeThreshold l.acc) (setLcu m s) =
      framerReport (windowReport b first l)
        (setLcu { m with
          start := (toneRun b.startRate l.acc.crossings first l.start).1
          stop := (toneRun b.stopRate l.acc.crossings first l.stop).1 } s) := by
  rw [windowReport, ← hstart, ← hstop, ← hboot]
  rfl

/-- The close of a window in one: its marks, the closed LCU, and the report to the framer (R4 to R14). -/
theorem closeWindow_eq (first : Position) (s : State) : closeWindow first s =
    framerReport (windowReport s.ssv.boot first s.lcu)
      (setLcu (closedLcu s.ssv.boot s.now first s.lcu) (windowMarks s.ssv.boot s.lcu s)) := by
  have hacts : closeWindow first s = closePatterns first s.lcu.acc (fadeVerdict s.ssv.boot.fadeThreshold s.lcu.acc)
      (clipWindow s.lcu.acc (closeTuning s.lcu.acc
        (countFaded s.ssv.boot s.lcu.acc (setLcu { s.lcu with acc := .zero, windowCount := 0 } s)))) := rfl
  rw [hacts, countFaded_setLcu, clipWindow_closeTuning, closePatterns_setLcu (b := s.ssv.boot)]
  · rfl
  · simp [windowMarks]
  · simp [clippedLcu]
  · simp [clippedLcu]

/-- The fade verdict as the statement writes it (R6). -/
theorem fadeVerdict_eq (threshold : Nat) (a : WindowAcc) :
    fadeVerdict threshold a = decide (a.meanStrength < threshold ∨ a.usable < 600) := by
  simp [fadeVerdict]

/-- Settles O9: the close by `closeWindow_eq`, with the clip monitor's three conditions read off `clipFires`. -/
theorem windowCloses : Obligations.WindowCloses := by
  intro s t bits h hcount w l fed b faded tuned first clips pulses toneSeen start stop counted reset clipped
  have hclose : exec (.levelWord t ⟨.afterEndOfBoot, bits⟩) s = .next (closeWindow first fed) :=
    (exec_levelWord_taken h t bits).trans (congrArg _ (takeWord_closing (by rw [hcount])))
  have hlcu : fed.lcu = l := by simp [fed]
  have hboot : fed.ssv.boot = b := by simp [fed, b]
  have hnow : fed.now = stampAt t s := by simp [fed, State.now, stampAt]
  have hfaded : fadeVerdict b.fadeThreshold l.acc = faded := fadeVerdict_eq ..
  have hclips : clipFires b l.acc.overload l.clipBlank = decide clips := rfl
  have htone (rate : Nat) (p : PatternRun) : toneRun rate l.acc.crossings first p = toneSeen rate p := by
    simp only [toneRun, toneSeen, patternMatches, Nat.mul_comm]
  have hreport : windowReport b first l = ⟨first.toNat / 1200, faded, if start.2 then start.1.first else none,
      if stop.2 then stop.1.first else none⟩ := by
    simp only [windowReport, htone, hfaded]; rfl
  have hmarks : windowMarks b l fed = clipped := by
    simp only [windowMarks, markClipped, hclips, countFaded, hfaded, decide_eq_true_eq]; rfl
  rw [hclose, closeWindow_eq, hlcu, hboot, hnow, hreport, hmarks]
  refine congrArg (fun x => Host.Outcome.next (framerReport _ (setLcu x clipped))) ?_
  simp only [closedLcu, clippedLcu, htone, tuneWindow_keeps, hclips, decide_eq_true_eq, ne_eq, ite_not]
  rfl

/-! ## The word history (R17) -/

section
variable (s : State)

@[simp] theorem setTail_history (tail : List TailLine) : (setTail tail s).lfr.history = s.lfr.history := rfl

@[simp] theorem returnToIdle_history (seen : Bool) (f : Lfr) : (returnToIdle seen f).history = f.history := rfl

@[simp] theorem commitLine_history (l : TailLine) : (commitLine l s).lfr.history = s.lfr.history := by
  unfold commitLine; dsimp only; split <;> simp

@[simp] theorem commitDue_history (pos : Position) (tail : List TailLine) :
    (commitDue pos tail s).lfr.history = s.lfr.history := by
  induction tail generalizing s with
  | nil => rfl
  | cons l rest ih => unfold commitDue; split <;> simp [ih]

@[simp] theorem commitTail_history (keep : TailLine → Bool) :
    (commitTail keep s).lfr.history = s.lfr.history :=
  foldl_preserves (fun s => s.lfr.history) (fun s l => commitLine l s) (by simp) _ s

@[simp] theorem finishImage_history (reason : CloseReason) (seen : Bool) :
    (finishImage reason seen s).lfr.history = s.lfr.history := by
  cases h : s.lfr.bound <;> simp [finishImage, h]

@[simp] theorem endByTone_history (reason : CloseReason) (p : Position) (seen : Bool) :
    (endByTone reason p seen s).lfr.history = s.lfr.history := by simp [endByTone]

@[simp] theorem endByFadeOrLimit_history (reason : CloseReason) :
    (endByFadeOrLimit reason s).lfr.history = s.lfr.history := by simp [endByFadeOrLimit]

@[simp] theorem closeLine_history (l : LineInProgress) : (closeLine l s).lfr.history = s.lfr.history := by
  unfold closeLine; dsimp only; split <;> split <;> (try split) <;> simp

@[simp] theorem imageWord_history (w : HeardWord) : (imageWord w s).lfr.history = s.lfr.history := by
  unfold imageWord; split
  · dsimp only; split <;> split <;> simp
  · rfl

@[simp] theorem enterImage_history (r : Rate) : (enterImage r s).lfr.history = s.lfr.history := by
  unfold enterImage; dsimp only; split
  · rfl
  · exact (foldl_preserves (fun s => s.lfr.history) (fun s w => imageWord w s) (by simp) _ _).trans (by simp)

@[simp] theorem takeMiss_history (r : Rate) : (takeMiss r s).lfr.history = s.lfr.history := by
  unfold takeMiss; split
  · rfl
  · split <;> simp

@[simp] theorem decideMiss_history (w : HeardWord) : (decideMiss w s).lfr.history = s.lfr.history := by
  unfold decideMiss; split
  · split <;> simp
  · rfl

@[simp] theorem imageFade_history (faded : Bool) : (imageFade faded s).lfr.history = s.lfr.history := by
  unfold imageFade; split
  · rfl
  · dsimp only; split
    · rfl
    · split <;> simp

@[simp] theorem imageReport_history (r : WindowReport) : (imageReport r s).lfr.history = s.lfr.history := by
  unfold imageReport; split <;> (try split) <;> simp

/-- A window report leaves the word history alone. -/
@[simp] theorem framerReport_history (r : WindowReport) : (framerReport r s).lfr.history = s.lfr.history := by
  unfold framerReport; split
  · split <;> simp
  · split
    · simp
    · split <;> simp
  · simp

end

section
variable (c : WordRun) (now : Nat) (f : Lfr)

@[simp] theorem idlePulse_history : (idlePulse c now f).history = f.history := by
  unfold idlePulse; split
  · rfl
  · dsimp only; split <;> rfl

@[simp] theorem phasingPulse_history (r : Rate) : (phasingPulse c r now f).history = f.history := by
  unfold phasingPulse; split
  · split <;> rfl
  · rfl

@[simp] theorem judgePulse_history : (judgePulse c now f).history = f.history := by
  unfold judgePulse; split
  · split <;> simp
  · split <;> simp
  · rfl

/-- A word enters the history before its pulse is judged (R17). -/
@[simp] theorem detectPulse_history (w : HeardWord) :
    (detectPulse w now f).history = pushHistory w f.history := by
  unfold detectPulse; dsimp only; split <;> simp

end

/-- Taking a word adds it to the history, and nothing else the framer does at a word touches the history (R17). -/
@[simp] theorem framerWord_history (w : HeardWord) (s : State) :
    (framerWord w s).lfr.history = pushHistory w s.lfr.history := by
  unfold framerWord; dsimp only; split <;> simp

/-! ## The frame of a level word -/

theorem slc_eq_but_queue {a b : Slc}
    (h : a.lineState = b.lineState ∧ a.recessiveRun = b.recessiveRun ∧ a.rx = b.rx ∧ a.role = b.role ∧
      a.damageRun = b.damageRun ∧ a.silent = b.silent ∧ a.sle = b.sle ∧ a.sltRecessive = b.sltRecessive) :
    a = { b with queue := a.queue } := by
  cases a; cases b; simp_all

theorem ssv_eq_but_counters {a b : Ssv}
    (h : a.own = b.own ∧ a.boot = b.boot ∧ a.status = b.status ∧ a.version = b.version ∧ a.minuteDue = b.minuteDue ∧
      a.rosterDue = b.rosterDue ∧ a.peers = b.peers ∧ a.bootBus = b.bootBus ∧ a.bootSteps = b.bootSteps) :
    a = { b with counters := a.counters } := by
  cases a; cases b; simp_all

section
variable (bits : BitVec 16) (s : State)

@[simp] theorem closedLcu_wordPos (b : BootFields) (now : Nat) (first : Position) (l : Lcu) :
    (closedLcu b now first l).wordPos = l.wordPos := by simp [closedLcu, clippedLcu]

/-- The LCU behind the close of a window: the close of the one it held. -/
theorem closeWindow_lcu (first : Position) :
    (closeWindow first s).lcu = closedLcu s.ssv.boot s.now first s.lcu := by simp [closeWindow_eq]

@[simp] theorem closeWindow_history (first : Position) :
    (closeWindow first s).lfr.history = s.lfr.history := by simp [closeWindow_eq, windowMarks]

/-- The LCU behind a word: its own part, and the close of the window at the 1,200th (R1, R4). -/
theorem takeWord_lcu : (takeWord bits s).lcu =
    if 1200 ≤ s.lcu.windowCount + 1 then
      closedLcu s.ssv.boot s.now (s.lcu.wordPos - 1199) (lcuWord (handOff bits s.lcu) s.lcu)
    else lcuWord (handOff bits s.lcu) s.lcu := by
  split
  · next h => simp [takeWord_closing h, closeWindow_lcu, State.now]
  · next h => simp [takeWord_inside (Nat.not_le.mp h)]

theorem takeWord_wordPos : (takeWord bits s).lcu.wordPos = s.lcu.wordPos + 1 := by
  rw [takeWord_lcu]; split
  · rw [closedLcu_wordPos]; rfl
  · rfl

theorem takeWord_windowCount : (takeWord bits s).lcu.windowCount =
    if 1200 ≤ s.lcu.windowCount + 1 then 0 else s.lcu.windowCount + 1 := by
  rw [takeWord_lcu]; split <;> rfl

theorem takeWord_history :
    (takeWord bits s).lfr.history = pushHistory (handOff bits s.lcu) s.lfr.history := by
  rcases Nat.lt_or_ge (s.lcu.windowCount + 1) 1200 with h | h
  · simp [takeWord_inside h]
  · simp [takeWord_closing h]

/-- Of the line a word moves the queue alone: the NOTEs and frames it gives rise to. -/
theorem takeWord_slc : (takeWord bits s).slc = { s.slc with queue := (takeWord bits s).slc.queue } :=
  slc_eq_but_queue (by simp)

/-- Of the station services a word moves the counters alone. -/
theorem takeWord_ssv : (takeWord bits s).ssv = { s.ssv with counters := (takeWord bits s).ssv.counters } :=
  ssv_eq_but_counters (by simp)

end

/-- Settles O7: the three ways of a word by the marking, then each field of the taken one by its own lemma. -/
theorem levelWordTaken : Obligations.LevelWordTaken := by
  refine fun s t bits => ⟨fun h mark => exec_levelWord_stopped h t _, fun h => exec_levelWord_early h t bits, fun h => ?_⟩
  refine ⟨_, exec_levelWord_taken h t bits, takeWord_wordPos _ _, takeWord_windowCount _ _, ?history, ?clock, ?phase,
    ?pending, takeWord_slc _ _, takeWord_ssv _ _, ?due, ?ptr⟩
  case history => simp only [takeWord_history, pushHistory, handOff_eq, beq_eq_decide, Config.historyWords]
  all_goals simp [h]

/-! ## What a step makes of the LCU -/

@[simp] theorem bootStep_lcu (s : State) : (bootStep s).lcu = s.lcu := by
  unfold bootStep freeBootBus; split
  · rfl
  · split
    · rfl
    · split
      · rfl
      · dsimp only; split <;> rfl

@[simp] theorem takeBootSteps_lcu (n : Nat) (s : State) : (takeBootSteps n s).lcu = s.lcu := by
  induction n generalizing s with
  | zero => rfl
  | succ n ih => rw [takeBootSteps, ih, bootStep_lcu]

@[simp] theorem idleStep_lcu (s : State) : (idleStep s).lcu = s.lcu := by
  unfold idleStep; split <;> simp

/-! ### The commands that leave it alone -/

section
variable (s : State)

@[simp] theorem startFrame_lcu (place : Nat) : (startFrame place s).lcu = s.lcu := rfl

@[simp] theorem loseArbitration_lcu (e : Entry) (bit : Nat) : (loseArbitration e bit s).lcu = s.lcu := by
  unfold loseArbitration; dsimp only; split <;> simp

@[simp] theorem lineAfterSend_lcu (own : Receiver) (e : Entry) (outcome : SendOutcome) :
    (lineAfterSend own e outcome s).lcu = s.lcu := by cases outcome <;> rfl

@[simp] theorem countCompletion_lcu (outcome : SendOutcome) : (countCompletion outcome s).lcu = s.lcu := by
  cases outcome <;> rfl

@[simp] theorem completeSend_lcu (e : Entry) (outcome : SendOutcome) : (completeSend e outcome s).lcu = s.lcu := by
  simp [completeSend, apply_ite State.lcu]

@[simp] theorem resendOpen_lcu (i : SlotNo) : (resendOpen i s).lcu = s.lcu := by
  unfold resendOpen; split
  · rfl
  · split <;> simp

@[simp] theorem wantExpiry_lcu (i : SlotNo) (due : Nat) : (wantExpiry i due s).lcu = s.lcu := by simp [wantExpiry]

@[simp] theorem sweepOver_lcu (i : SlotNo) : (sweepOver i s).lcu = s.lcu := by unfold sweepOver; split <;> simp

end

/-- What a command can make of the LCU `l`: RESET, END_OF_BOOT, LEVEL_WORD and GAIN_DOWN_END move it, none other. -/
inductive LcuMove (l : Lcu) (u : State) : Prop
  | stays (h : u.lcu = l)
  | reset (h : u.lcu = .reset)
  | bootEnds (h : u.lcu = { l with wordPos := 0 })
  | pulseEnds (h : u.lcu = { l with gdn := false, gainDownEnd := none })
  | word (bits : BitVec 16) (v : State) (hv : v.lcu = l) (h : u = takeWord bits v)

/-- The cases are grouped by the shape of the command: no guard, one guard, a guard behind what it looks up. -/
theorem exec_lcuMove {c : Instr} {s u : State} (h : exec c s = .next u) : LcuMove s.lcu u := by
  cases c <;> cases h
  case reset.refl pin =>
    cases pin with
    | low => exact .reset rfl
    | released straps memory => refine .stays ?_; dsimp only; split <;> rfl
  case endOfBoot.refl n =>
    split
    · exact .bootEnds (by simp [finishBoot, freeBootBus])
    · exact .stays rfl
  case levelWord.refl t word =>
    dsimp only
    split
    · exact .word word.bits (advance t s) (by simp) rfl
    · exact .stays (by simp)
  case gainDownEnd.refl t =>
    split
    · exact .pulseEnds (by simp)
    · exact .stays (by simp)
  all_goals refine .stays ?_
  case wordDiscard.refl | frameDamaged.refl | frameMalformed.refl | clash.refl | openHeard.refl | closeHeard.refl |
      dropHeard.refl | tallyHeard.refl | wantHeard.refl | claimHeard.refl | lineHeard.refl | restartHeard.refl |
      askHeard.refl | rosterHeard.refl | infoHeard.refl => simp
  case phasingTimeout.refl | lineIdle.refl | silentEnd.refl | tallyExpiry.refl | rosterExpiry.refl |
      minuteExpiry.refl => split <;> simp
  case frameStart.refl | lineBusy.refl => split <;> (try split) <;> simp
  case arbitrationWon.refl => split <;> simp
  case arbitrationLost.refl | sendCompletion.refl | wantTimerExpiry.refl | sweepDeadline.refl | silenceClose.refl |
      claimLapse.refl | heardLapse.refl | reassemblyTimeout.refl | peerAbsent.refl =>
    split
    · split <;> simp
    · simp

/-- A step takes the front command, or passes time, which leaves the LCU alone. -/
theorem step_lcuMove {s u : State} (h : step s = .next u) : LcuMove s.lcu u := by
  unfold step at h
  split at h
  · cases h; exact .stays (by simp)
  · have m := exec_lcuMove h
    exact m

/-! ## The ranges of the LCU (R4, R7 to R9, R11, R12, R14) -/

theorem lcuReset_conditioned : Conditioned .reset where
  count := by decide
  usable := by decide
  overload := by decide
  crossings := by decide
  bright := by decide
  strength := by decide
  brightLow := by decide
  brightHigh := by decide
  offset := by decide
  tuningBlank := by decide
  jumpRun := by decide
  clipBlank := by decide
  gainDown := by decide
  start := ⟨by decide, by decide, by decide⟩
  stop := ⟨by decide, by decide, by decide⟩

/-- The tuning offsets the loop can reach (R9). -/
abbrev offsetInRange (o : Int) : Prop := -48 ≤ o ∧ o ≤ 48 ∧ o % 2 = 0

section
variable {l : Lcu}

/-- One step of the offset keeps it even and within ±48, and the blanking count at 2 (R9). -/
theorem tuningStep_ranges (wt : Nat) (ho : offsetInRange l.offset)
    (hb : l.tuningBlank ≤ 2) : offsetInRange (tuningStep wt l).offset ∧
      (tuningStep wt l).tuningBlank ≤ 2 ∧ (tuningStep wt l).jumpRun = l.jumpRun := by
  have hblank (o : Int) : (if o = l.offset then l.tuningBlank else 2) ≤ 2 := by split <;> omega
  rcases (show 246 < wt ∨ wt < 234 ∨ (234 ≤ wt ∧ wt ≤ 246) by omega) with h | h | ⟨hlow, hhigh⟩
  · rw [tuningStep_high h]; exact ⟨by dsimp only [offsetInRange]; omega, hblank _, rfl⟩
  · rw [tuningStep_low h]; exact ⟨by dsimp only [offsetInRange]; omega, hblank _, rfl⟩
  · rw [tuningStep_inBand hlow hhigh]; exact ⟨ho, hb, rfl⟩

/-- The tuning loop keeps its fields in their ranges, whatever the window (R7 to R9). -/
theorem tuneWindow_ranges (b : BootFields) (a : WindowAcc)
    (ho : offsetInRange l.offset) (hb : l.tuningBlank ≤ 2) (hj : l.jumpRun ≤ 3) :
    offsetInRange (tuneWindow b a l).1.offset ∧
      (tuneWindow b a l).1.tuningBlank ≤ 2 ∧ (tuneWindow b a l).1.jumpRun ≤ 3 := by
  rcases tuneWindow_cases b a l with h | h | h | ⟨hr, h | h⟩ <;> rw [h]
  · exact ⟨ho, hb, hj⟩
  · exact ⟨ho, by dsimp only; omega, Nat.zero_le 3⟩
  · exact ⟨(by decide : offsetInRange 0), le_refl 2, Nat.zero_le 3⟩
  · exact ⟨ho, by dsimp only; omega, by dsimp only; omega⟩
  · obtain ⟨ho', hb', hj'⟩ := tuningStep_ranges (l := { l with jumpRun := nextJumpRun a l }) a.brightMean ho hb
    exact ⟨ho', hb', by rw [hj']; dsimp only; omega⟩

/-- A word inside its window keeps the ranges: every count rises by at most the one the window count rises by (R4). -/
theorem lcuWord_conditioned {w : HeardWord} (h : Conditioned l) (hc : l.windowCount + 1 < 1200) (hl : w.level ≤ 255)
    (hs : w.strength ≤ 63) : Conditioned (lcuWord w l) := by
  obtain ⟨_, usable, overload, crossings, bright, strength, brightLow, brightHigh, offset, tuningBlank, jumpRun,
    clipBlank, gainDown, start, stop⟩ := h
  refine ⟨hc, ?_, ?_, ?_, ?_, ?_, ?_, ?_, offset, tuningBlank, jumpRun, clipBlank, gainDown, start, stop⟩
  all_goals
    simp only [lcuWord, accumulate]
    grind

/-- The clip monitor keeps its blanking count within 4, and GDN high with its timer (R11, R12). -/
theorem clippedLcu_ranges (b : BootFields) (fires : Bool) (now : Nat) (hc : l.clipBlank ≤ 4)
    (hg : l.gdn = true ↔ l.gainDownEnd ≠ none) :
    (clippedLcu b fires now l).clipBlank ≤ 4 ∧
      ((clippedLcu b fires now l).gdn = true ↔ (clippedLcu b fires now l).gainDownEnd ≠ none) := by
  constructor
  · dsimp only [clippedLcu]; split_ifs <;> omega
  · dsimp only [clippedLcu]; split_ifs <;> simp [hg]

/-- The close of a window keeps the ranges, with the window's counts cleared. -/
theorem closedLcu_conditioned (w : HeardWord) (b : BootFields) (now : Nat) (first : Position) (h : Conditioned l) :
    Conditioned (closedLcu b now first (lcuWord w l)) := by
  obtain ⟨hoffset, hblank, hjump⟩ :=
    tuneWindow_ranges (l := lcuWord w l) b (lcuWord w l).acc h.offset h.tuningBlank h.jumpRun
  obtain ⟨hclip, hgain⟩ := clippedLcu_ranges (l := (tuneWindow b (lcuWord w l).acc (lcuWord w l)).1) b
    (clipFires b (lcuWord w l).acc.overload (lcuWord w l).clipBlank) now
    (by simpa [lcuWord] using h.clipBlank) (by simpa [lcuWord] using h.gainDown)
  have zero : (0 : Nat) ≤ 0 := le_refl 0
  exact ⟨(by decide : 0 < 1200), zero, zero, zero, zero, zero, zero, zero, hoffset, hblank, hjump, hclip, hgain,
    patternWindow_sound _ _ h.start, patternWindow_sound _ _ h.stop⟩

/-- Every move of the LCU keeps its ranges. -/
theorem LcuMove.conditioned {u : State} (m : LcuMove l u) (h : Conditioned l) : Conditioned u.lcu := by
  cases m with
  | stays hu => rw [hu]; exact h
  | reset hu => rw [hu]; exact lcuReset_conditioned
  | bootEnds hu => rw [hu]; exact { h with }
  | pulseEnds hu => rw [hu]; exact { h with gainDown := by simp }
  | word bits v hv hu =>
    subst hv hu
    rw [takeWord_lcu]
    split
    · exact closedLcu_conditioned _ _ _ _ h
    · next hc => exact lcuWord_conditioned h (Nat.not_le.mp hc) (handOff_level_le _ _) (handOff_strength_le _ _)

end

/-- Settles O55: a step is one of the LCU's moves, and each keeps the ranges. -/
theorem stepKeepsConditioning : Obligations.StepKeepsConditioning :=
  fun _ _ h hstep => (step_lcuMove hstep).conditioned h

end Sys2Proof.Machine

/-! Proofs for chapters 2 and 3, the line framer, with the sizes of the part's tables and lists. -/

namespace Sys2Proof.Machine

/-! ## The sizes of tables and lists, part by part -/

/-- The framer's lists are within their sizes, and what it has of lines is 1,200 pixels wide (R17, R22, R30, R31). -/
structure Lfr.Sized (f : Lfr) : Prop where
  history : f.history.length ≤ 9600
  pulses : f.pulses.length ≤ 16
  tail : f.tail.length ≤ 9
  line : ∀ l, f.line = some l → l.pixels.length = 1200
  copies : ∀ t ∈ f.tail, t.copy.pixels.length = 1200

/-- The queue holds at most 32 frames, 24 of them LINE fragments (R104). -/
structure QueueSized (q : List Entry) : Prop where
  entries : q.length ≤ 32
  lines : lineEntries q ≤ 24

/-- A column lists rising indices of a chart with codes of a frame (R117). -/
structure ColumnFits (c : Column) : Prop where
  form : columnWf c
  ranges : ∀ e ∈ c, e.1 < 2048 ∧ e.2 ≤ 15

/-- Every column of every view has its form. -/
def ViewsFit (views : Vector PeerView 4) : Prop := ∀ (i : SlotNo) (r : Receiver), ColumnFits (views[i])[r]

/-- All that `Bounded` and `Viewed` ask, each under the part of the state it is about. -/
structure Fits (s : State) : Prop where
  framer : s.lfr.Sized
  queue : QueueSized s.slc.queue
  claims : s.xen.claims.length ≤ 64
  assemblies : s.xen.assemblies.length ≤ 6
  counters : ∀ i : Fin 16, s.ssv.counters[i] ≤ 65535
  pages : ∀ p ∈ s.cst.pages, p.2.length = 1200
  views : ViewsFit s.xen.views

theorem fits_iff {s : State} : Fits s ↔ Bounded s ∧ Viewed s := by
  constructor
  · intro ⟨framer, queue, claims, assemblies, counters, pages, views⟩
    exact ⟨⟨framer.history, framer.pulses, framer.tail, queue.entries, queue.lines, claims, assemblies, counters,
      framer.line, framer.copies, pages⟩, fun i r => ⟨(views i r).form, (views i r).ranges⟩⟩
  · intro ⟨bounded, viewed⟩
    exact ⟨⟨bounded.history, bounded.pulses, bounded.tail, bounded.line, bounded.copies⟩,
      ⟨bounded.queue, bounded.lines⟩, bounded.claims, bounded.assemblies, bounded.counters, bounded.pages,
      fun i r => ⟨(viewed i r).1, (viewed i r).2⟩⟩

/-- Sizes are kept by whatever leaves the seven parts they are about. -/
theorem Fits.of_eq {s u : State} (h : Fits s) (lfr : u.lfr = s.lfr := by rfl)
    (queue : u.slc.queue = s.slc.queue := by rfl) (claims : u.xen.claims = s.xen.claims := by rfl)
    (assemblies : u.xen.assemblies = s.xen.assemblies := by rfl)
    (counters : u.ssv.counters = s.ssv.counters := by rfl) (pages : u.cst.pages = s.cst.pages := by rfl)
    (views : u.xen.views = s.xen.views := by rfl) : Fits u :=
  ⟨lfr ▸ h.framer, queue ▸ h.queue, claims ▸ h.claims, assemblies ▸ h.assemblies, counters ▸ h.counters,
    pages ▸ h.pages, views ▸ h.views⟩

/-! ### The queue -/

section
variable {q : List Entry}

theorem QueueSized.sublist {r : List Entry} (h : QueueSized q) (hr : r.Sublist q) : QueueSized r :=
  ⟨hr.length_le.trans h.entries, (hr.countP_le).trans h.lines⟩

/-- What alters entries or takes them out, making no LINE fragment of another frame, keeps the sizes. -/
theorem QueueSized.filterMap (h : QueueSized q) {f : Entry → Option Entry}
    (hf : ∀ e e', f e = some e' → e'.payload.isLine = e.payload.isLine) : QueueSized (q.filterMap f) := by
  refine ⟨(List.length_filterMap_le f q).trans h.entries, le_trans ?_ h.lines⟩
  clear h
  induction q with
  | nil => exact le_refl _
  | cons e rest ih =>
    rw [List.filterMap_cons]
    cases he : f e with
    | none => exact ih.trans (List.Sublist.countP_le (List.sublist_cons_self e rest))
    | some e' => simpa only [lineEntries, List.countP_cons, hf e e' he] using Nat.add_le_add_right ih _

theorem replaceKey_isLine (old new : Key) (p : Payload) : (p.replaceKey old new).isLine = p.isLine := by
  cases p <;> rfl

theorem apply_isLine {r : Request} {e e' : Entry} (h : e.apply r = some e') : e'.payload.isLine = e.payload.isLine := by
  cases r with
  | remove => cases h
  | replaceKey old new => cases h; exact replaceKey_isLine ..
  | withdrawLines m =>
    unfold Entry.apply at h
    dsimp only at h
    split at h
    · next hp =>
      split at h
      · cases h
      · cases h; rw [hp]; rfl
    · cases h; rfl

theorem take_isLine {r : Request} {e e' : Entry} (h : e.take r = some e') : e'.payload.isLine = e.payload.isLine := by
  unfold Entry.take at h
  split at h
  · cases h; rfl
  · exact apply_isLine h

theorem applyAll_isLine {rs : List Request} {e e' : Entry} (h : Entry.applyAll rs e = some e') :
    e'.payload.isLine = e.payload.isLine := by
  induction rs generalizing e with
  | nil => cases h; rfl
  | cons r rest ih =>
    unfold Entry.applyAll at h
    split at h
    · cases h
    · next ha => exact (ih h).trans (apply_isLine ha)

theorem requestEntries_sized (h : QueueSized q) (sel : Entry → Bool) (r : Request) :
    QueueSized (requestEntries sel r q) :=
  h.filterMap fun e e' he => by
    split at he
    · exact take_isLine he
    · cases he; rfl

theorem loseQueue_sized (h : QueueSized q) : QueueSized (loseQueue q) :=
  h.filterMap fun e e' he => by
    split at he
    · exact applyAll_isLine (e := { e with onWire := false, waiting := [] }) he
    · cases he; rfl

theorem win_isLine (clock : Nat) (e : Entry) : (e.win clock).payload.isLine = e.payload.isLine := by
  unfold Entry.win
  split
  · split
    · next hp => rw [hp]; rfl
    · rfl
  · rfl

theorem winQueue_sized (h : QueueSized q) (clock : Nat) : QueueSized (q.map (Entry.win clock)) := by
  refine ⟨by simpa using h.entries, ?_⟩
  have hcount : lineEntries (q.map (Entry.win clock)) = lineEntries q := by
    simp only [lineEntries, List.countP_map]
    exact List.countP_congr fun e _ => by simp [win_isLine]
  exact hcount ▸ h.lines

theorem startQueue_sized (h : QueueSized q) (place : Nat) :
    QueueSized (q.modify place (fun e => { e with onWire := true })) := by
  refine ⟨by simpa using h.entries, le_trans (le_of_eq ?_) h.lines⟩
  clear h
  induction q generalizing place with
  | nil => cases place <;> rfl
  | cons e rest ih =>
    cases place with
    | zero => rfl
    | succ n => simp only [lineEntries, List.modify_succ_cons, List.countP_cons] at ih ⊢; rw [ih n]

end

/-! ### The columns -/

/-- A code of a frame written at an index of a chart keeps the column's form (R118). -/
theorem ColumnFits.write {c : Column} (h : ColumnFits c) {index code : Nat} (hi : index < 2048) (hc : code ≤ 15) :
    ColumnFits (writeCode c index code) := by
  refine ⟨writeCode_keeps_wf c index code h.form, fun e he => ?_⟩
  unfold writeCode at he
  split at he
  · exact h.ranges e (mem_mapErase he)
  · rcases mem_mapSet he with rfl | he
    · exact ⟨hi, hc⟩
    · exact h.ranges e he

theorem columnFits_nil : ColumnFits [] := ⟨⟨List.Pairwise.nil, by simp⟩, by simp⟩

theorem viewFits_empty (r : Receiver) : ColumnFits (PeerView.empty[r]) := by
  simpa [PeerView.empty] using columnFits_nil

/-- A view set keeps the form of them all when its own columns have it. -/
theorem ViewsFit.set {views : Vector PeerView 4} (h : ViewsFit views) (i : SlotNo) {v : PeerView}
    (hv : ∀ r : Receiver, ColumnFits v[r]) : ViewsFit (views.set i v) := by
  intro j r
  by_cases hij : i = j
  · subst hij; simpa using hv r
  · have hne : i.val ≠ j.val := fun e => hij (Fin.ext e)
    simpa [hne] using h j r

theorem viewFits_setColumn {v : PeerView} (h : ∀ r : Receiver, ColumnFits v[r]) (r : Receiver) {c : Column}
    (hc : ColumnFits c) (r' : Receiver) : ColumnFits (v.set r c)[r'] := by
  by_cases hr : r = r'
  · subst hr; simpa using hc
  · have hne : r.val ≠ r'.val := fun e => hr (Fin.ext e)
    simpa [hne] using h r'

/-! ### The shared operations -/

section
variable {s : State}

theorem Fits.setLfr (h : Fits s) {f : Lfr} (hf : f.Sized) : Fits (setLfr f s) := { h with framer := hf }

theorem Fits.setQueue (h : Fits s) {q : List Entry} (hq : QueueSized q) : Fits (setQueue q s) := { h with queue := hq }

theorem Fits.setSlc (h : Fits s) {l : Slc} (hl : QueueSized l.queue) : Fits (setSlc l s) := { h with queue := hl }

theorem Fits.setClaims (h : Fits s) {c : List Claim} (hc : c.length ≤ 64) : Fits (setClaims c s) :=
  { h with claims := hc }

theorem Fits.setAssemblies (h : Fits s) {a : List Assembly} (ha : a.length ≤ 6) : Fits (setAssemblies a s) :=
  { h with assemblies := ha }

theorem Fits.advance (h : Fits s) (t : Nat) : Fits (advance t s) :=
  h.of_eq (by simp) (by simp) (by simp) (by simp) (by simp) (by simp) (by simp)

theorem Fits.setLcu (h : Fits s) (l : Lcu) : Fits (setLcu l s) := h.of_eq
theorem Fits.setChart (h : Fits s) (i : SlotNo) (c : Option Chart) : Fits (setChart i c s) := h.of_eq
theorem Fits.setOpenReq (h : Fits s) (i : SlotNo) (r : OpenRequest) : Fits (setOpenReq i r s) := h.of_eq
theorem Fits.setBuild (h : Fits s) (b : List BuildLine) : Fits (setBuild b s) := h.of_eq
theorem Fits.setPeer (h : Fits s) (st : Station) (p : Option Peer) : Fits (setPeer st p s) := h.of_eq
theorem Fits.returnPages (h : Fits s) (ps : List Nat) : Fits (returnPages ps s) := h.of_eq
theorem Fits.passSequence (h : Fits s) (q : Byte) : Fits (passSequence q s) := h.of_eq
theorem Fits.dropBuildLine (h : Fits s) (k : Key) (j : Nat) : Fits (dropBuildLine k j s) := h.of_eq

theorem Fits.updateChart (h : Fits s) (i : SlotNo) (f : Chart → Chart) : Fits (updateChart i f s) :=
  h.of_eq (by simp) (by simp) (by simp) (by simp) (by simp) (by simp) (by simp)

theorem Fits.refreshReference (h : Fits s) (k : Key) (t : Nat) : Fits (refreshReference k t s) :=
  h.of_eq (by simp) (by simp) (by simp) (by simp) (by simp) (by simp) (by simp)

theorem Fits.setAllDirty (h : Fits s) : Fits (setAllDirty s) :=
  h.of_eq (by simp) (by simp) (by simp) (by simp) (by simp) (by simp) (by simp)

/-- A counter stops at its limit (R176). -/
theorem Fits.bump (h : Fits s) (n : Fin 16) (k : Nat) : Fits (bump n k s) where
  __ := h
  counters m := by
    rw [bump_getElem]
    split
    · exact Nat.min_le_left ..
    · exact h.counters m

theorem Fits.setEmptyView (h : Fits s) (i : SlotNo) : Fits (setView i .empty s) :=
  { h with views := h.views.set i viewFits_empty }

/-- A code heard for a line of a chart keeps the views in their form (R118, R119). -/
theorem Fits.setPeerCode (h : Fits s) (i : SlotNo) (r : Receiver) {index code : Nat} (hi : index < 2048)
    (hc : code ≤ 15) : Fits (setPeerCode i r index code s) :=
  { h with views := h.views.set i (viewFits_setColumn (h.views i) r ((h.views i r).write hi hc)) }

theorem Fits.clearColumn (h : Fits s) (r : Receiver) : Fits (clearColumn r s) where
  __ := h
  views i := by simpa [Machine.clearColumn] using viewFits_setColumn (h.views i) r columnFits_nil

theorem Fits.dropClaims (h : Fits s) (sel : Claim → Bool) : Fits (dropClaims sel s) :=
  h.setClaims ((List.length_filter_le ..).trans h.claims)

/-- One frame is taken only when there is room for it (R104). -/
theorem Fits.enqueue (h : Fits s) (e : Entry) : Fits (enqueue e s).1 := by
  unfold Machine.enqueue
  split
  · next ht =>
    simp only [queueTakes, Config.queueRoom, Config.lineRoom, Bool.and_eq_true, Bool.or_eq_true,
      Bool.not_eq_true'] at ht
    obtain ⟨hroom, hlines⟩ := ht
    refine h.setQueue ⟨by simpa using of_decide_eq_true hroom, ?_⟩
    rw [lineEntries, List.countP_append, List.countP_singleton]
    rcases hlines with hl | hl
    · simpa [hl, lineEntries] using h.queue.lines
    · have hroom' := of_decide_eq_true hl
      unfold lineEntries at hroom'
      split <;> omega
  · exact h.bump 13 1

/-- A line's fragments are taken only when there is room for them all (R104). -/
theorem Fits.enqueueGroup (h : Fits s) (es : List Entry) : Fits (enqueueGroup es s).1 := by
  unfold Machine.enqueueGroup
  split
  · next hroom =>
    simp only [Config.queueRoom, Config.lineRoom] at hroom
    obtain ⟨hentries, hlines, _⟩ := hroom
    refine h.setQueue ⟨by simpa using hentries, ?_⟩
    rw [lineEntries, List.countP_append]
    exact (Nat.add_le_add_left List.countP_le_length _).trans hlines
  · exact h

theorem Fits.raiseNote (h : Fits s) (n : Nat) (k : Option Key) (d : BitVec 16) : Fits (raiseNote n k d s) := by
  unfold Machine.raiseNote
  split
  · exact h.enqueue _
  · exact h

theorem Fits.buildLines (l : List BuildLine) {s : State} (h : Fits s) : Fits (buildLines l s) := by
  induction l generalizing s with
  | nil => exact h.setBuild []
  | cons b rest ih =>
    unfold Machine.buildLines
    split
    · exact ih h
    · dsimp only
      split
      · exact ih (h.enqueueGroup _)
      · exact h.setBuild _

theorem Fits.tryBuild (h : Fits s) : Fits (tryBuild s) := h.buildLines _

theorem Fits.retryBuild (h : Fits s) (before : State) : Fits (retryBuild before s) := by
  rcases retryBuild_cases s before with hr | hr <;> rw [hr]
  · exact h.tryBuild
  · exact h

theorem Fits.withdrawEntries (h : Fits s) (sel : Entry → Bool) (r : Request) : Fits (withdrawEntries sel r s) :=
  (h.setQueue (requestEntries_sized h.queue sel r)).retryBuild s

/-! ### The chart store -/

theorem Fits.poolEmptyDrop (h : Fits s) (c : Chart) (j : Nat) : Fits (poolEmptyDrop c j s) := by
  unfold Machine.poolEmptyDrop
  dsimp only
  split
  · exact h.bump 12 1
  · exact Fits.raiseNote ((h.bump 12 1).of_eq) _ _ _

theorem Fits.enterHeld (h : Fits s) (i : SlotNo) (d : Nat) : Fits (enterHeld i d s) := by
  unfold Machine.enterHeld
  split
  · exact h
  · exact (h.setChart _ _).raiseNote _ _ _

theorem Fits.testComplete (h : Fits s) (i : SlotNo) : Fits (testComplete i s) := by
  unfold Machine.testComplete
  split
  · exact h
  · split
    · exact h.enterHeld i 1
    · exact h

theorem Fits.closeSlot (h : Fits s) (i : SlotNo) (r : CloseReason) : Fits (closeSlot i r s) := by
  unfold Machine.closeSlot
  split
  · exact h
  · split
    · exact h
    · dsimp only
      split
      · exact ((h.setChart _ _).setOpenReq _ _).enterHeld _ _
      · exact (((h.setChart _ _).setOpenReq _ _).raiseNote _ _ _).testComplete _

/-- A page written with 1,200 pixels keeps the pool's pages at 1,200 (R53). -/
theorem write_pages {m : List (Nat × Pixels)} (hm : ∀ p ∈ m, p.2.length = 1200) (page : Nat) {px : Pixels}
    (hp : px.length = 1200) : ∀ p ∈ Memory.write m page px, p.2.length = 1200 := by
  intro p hmem
  unfold Memory.write at hmem
  split at hmem
  · exact hm p (mem_mapErase hmem)
  · rcases mem_mapSet hmem with rfl | hmem
    · exact hp
    · exact hm p hmem

theorem Fits.storeCopy (h : Fits s) (i : SlotNo) (c : Chart) (j : Nat) {v : Copy} (hv : v.pixels.length = 1200)
    (page : Nat) (rest : List Nat) : Fits (storeCopy i c j v page rest s) := by
  have hwritten : Fits { s with cst := { s.cst with free := rest, pages := Memory.write s.cst.pages page v.pixels } } :=
    { h with pages := write_pages h.pages page hv }
  have hcounted := (((hwritten.setChart i (some (c.store s.ssv.boot.poorFloor j page v))).returnPages
    (match mapGet c.lineMap j with | some e => [e.page] | none => [])).bump
      (match v.origin with | .localCopy => 1 | .peerCopy => 2) 1)
  unfold Machine.storeCopy
  dsimp only
  split
  · exact (hcounted.bump 3 1).testComplete i
  · exact hcounted.testComplete i

theorem Fits.mergeOffer (h : Fits s) (i : SlotNo) (k : Key) (j : Nat) {v : Copy} (hv : v.pixels.length = 1200) :
    Fits (mergeOffer i k j v s) := by
  unfold Machine.mergeOffer
  split
  · exact h
  · split
    · dsimp only
      split
      · split
        · exact (h.setChart _ _).bump 13 1
        · exact h.setChart _ _
      · split
        · exact (h.setChart _ _).poolEmptyDrop _ _
        · exact (h.setChart _ _).storeCopy i _ j hv _ _
    · exact h

theorem Fits.commitCopy (h : Fits s) (i : SlotNo) (j : Nat) {v : Copy} (hv : v.pixels.length = 1200) :
    Fits (commitCopy i j v s) := by
  unfold Machine.commitCopy
  split
  · exact h.bump 13 1
  · dsimp only
    split
    · exact (h.setChart _ _).mergeOffer i _ _ hv
    · exact h.bump 13 1

theorem Fits.freeSlot (h : Fits s) (i : SlotNo) : Fits (freeSlot i s) := by
  unfold Machine.freeSlot
  split
  · exact h
  · next c _ =>
    have hclaims := ((((h.returnPages (c.lineMap.map (fun e => e.2.page))).setChart i none).setEmptyView i).setOpenReq i
      .nothing).dropClaims (fun e => c.answersTo e.key)
    have hassemblies := hclaims.setAssemblies (a := s.xen.assemblies.filter (fun a => !c.answersTo a.key))
      ((List.length_filter_le ..).trans h.assemblies)
    exact ((hassemblies.setBuild _).setQueue (requestEntries_sized h.queue _ _)).retryBuild s

theorem Fits.secondChance (n : Nat) {s : State} (h : Fits s) : Fits (secondChance n s).1 := by
  induction n generalizing s with
  | zero => exact h
  | succ n ih =>
    have hmoved : Fits { s with cst := { s.cst with evictPtr := s.cst.evictPtr + 1 } } := h.of_eq
    unfold Machine.secondChance
    dsimp only
    split
    · exact ih hmoved
    · split
      · exact ih hmoved
      · split
        · exact ih (hmoved.setChart _ _)
        · exact (hmoved.freeSlot _).raiseNote _ _ _

theorem Fits.findSlot (h : Fits s) : Fits (findSlot s).1 := by
  unfold Machine.findSlot
  split
  · exact h
  · exact h.secondChance 5

theorem Fits.installChart (h : Fits s) (i : SlotNo) (c : Chart) : Fits (installChart i c s) :=
  ((h.setChart _ _).setEmptyView i).setOpenReq _ _

theorem Fits.allocationFailed (h : Fits s) (k : Option Key) (d : BitVec 16) : Fits (allocationFailed k d s) :=
  (h.raiseNote _ _ _).bump 13 1

theorem Fits.queueOpen (h : Fits s) (o : Block) (i : SlotNo) : Fits (queueOpen o i s) := by
  unfold Machine.queueOpen
  split
  · exact h
  · exact (h.enqueue _).setOpenReq _ _

theorem Fits.bindSlot (h : Fits s) (i : SlotNo) (o : Int) (t : Nat) : Fits (bindSlot i o t s) := by
  unfold Machine.bindSlot
  split
  · exact h
  · exact (h.setChart _ _).raiseNote _ _ _

theorem Fits.requestSlot (h : Fits s) (r : Rate) (t : Nat) : Fits (requestSlot r t s).1 := by
  unfold Machine.requestSlot
  split
  · exact h.bindSlot _ _ _
  · dsimp only
    split
    · exact h.findSlot.allocationFailed _ _
    · exact ((h.findSlot.installChart _ _).passSequence _).queueOpen _ _

theorem Fits.endLocalImage (h : Fits s) (i : SlotNo) (r : CloseReason) (n : Option Nat) :
    Fits (endLocalImage i r n s) := by
  unfold Machine.endLocalImage
  split
  · exact h
  · exact ((h.enqueue _).updateChart _ _).closeSlot _ _

end

/-! ### The framer -/

section
variable {f : Lfr}

theorem Lfr.reset_sized : Lfr.reset.Sized :=
  ⟨Nat.zero_le _, Nat.zero_le _, Nat.zero_le _, fun _ hl => (by cases hl), fun _ ht => (by cases ht)⟩

theorem Lfr.Sized.returnToIdle (h : f.Sized) (seen : Bool) : (returnToIdle seen f).Sized :=
  ⟨h.history, Nat.zero_le _, Nat.zero_le _, fun _ hl => (by cases hl), fun _ ht => (by cases ht)⟩

theorem Lfr.Sized.idlePulse (h : f.Sized) (c : WordRun) (now : Nat) : (idlePulse c now f).Sized := by
  unfold Machine.idlePulse
  split
  · exact { h with }
  · dsimp only
    split
    · exact { h with }
    · exact { h with pulses := show (2 : Nat) ≤ 16 by decide }

/-- Of seventeen pulses the oldest leaves (R22). -/
theorem newestPulses_length_le {pulses : List Pulse} (h : pulses.length ≤ 16) (p : Pulse) :
    (if 16 < (pulses ++ [p]).length then (pulses ++ [p]).drop 1 else pulses ++ [p]).length ≤ 16 := by
  split
  · simpa using h
  · next hroom => exact Nat.not_lt.mp hroom

theorem Lfr.Sized.phasingPulse (h : f.Sized) (c : WordRun) (r : Rate) (now : Nat) : (phasingPulse c r now f).Sized := by
  unfold Machine.phasingPulse
  split
  · split
    · exact ⟨h.history, newestPulses_length_le h.pulses _, h.tail, h.line, h.copies⟩
    · exact h
  · exact h

theorem Lfr.Sized.judgePulse (h : f.Sized) (c : WordRun) (now : Nat) : (judgePulse c now f).Sized := by
  unfold Machine.judgePulse
  split
  · split
    · exact h.idlePulse _ _
    · exact h
  · split
    · exact h.phasingPulse _ _ _
    · exact h
  · exact h

/-- Of 9,601 words the oldest leaves (R17). -/
theorem pushHistory_length_le (w : HeardWord) (hist : List HeardWord) : (pushHistory w hist).length ≤ 9600 := by
  simp only [pushHistory, Config.historyWords, List.length_drop, List.length_append, List.length_singleton]
  omega

theorem Lfr.Sized.setHistory (h : f.Sized) {hist : List HeardWord} (hhist : hist.length ≤ 9600)
    (run : Option WordRun) :
    Lfr.Sized { f with history := hist, darkRun := run } :=
  ⟨hhist, h.pulses, h.tail, h.line, h.copies⟩

theorem Lfr.Sized.detectPulse (h : f.Sized) (w : HeardWord) (now : Nat) : (detectPulse w now f).Sized := by
  have hheard := h.setHistory (pushHistory_length_le w f.history) (nextDarkRun w f.darkRun)
  unfold Machine.detectPulse
  dsimp only
  split
  · exact hheard
  · exact hheard.judgePulse _ _

end

@[simp] theorem lineAt_pixels_length (f : Lfr) (n : Nat) : (lineAt f n).pixels.length = 1200 :=
  List.length_replicate

@[simp] theorem applyWord_pixels_length (w : HeardWord) (l : LineInProgress) :
    (applyWord w l).pixels.length = l.pixels.length := by
  unfold applyWord; split <;> simp

@[simp] theorem formCopy_pixels_length (own : Receiver) (l : LineInProgress) :
    (formCopy own l).pixels.length = l.pixels.length := by simp [formCopy, pixelLevels]

/-! ### What the framer's acts come to -/

/-- A commit moves of the framer the highest local index alone (R33). -/
theorem commitLine_lfr (l : TailLine) (s : State) : (commitLine l s).lfr = { s.lfr with highest := some l.index } := by
  unfold commitLine; dsimp only; split <;> simp

/-- A full tail commits its head (R31). -/
def makeRoom (s : State) : State :=
  match s.lfr.tail with
  | [] => s
  | h :: rest => if 9 ≤ s.lfr.tail.length then setTail rest (commitLine h s) else s

/-- The closed line that the line in progress becomes (R31). -/
def closedLine (own : Receiver) (l : LineInProgress) : TailLine := ⟨l.index, l.start, l.next - 1, formCopy own l⟩

/-- A closing line is counted and joins the tail, room being made for it (R31). -/
def joinTail (l : LineInProgress) (s : State) : State :=
  let u := makeRoom (bump 0 1 s)
  setTail (u.lfr.tail ++ [closedLine s.ssv.own l]) u

/-- A line closes: it joins the tail, and the next begins or the image ends (R31). -/
theorem closeLine_eq (l : LineInProgress) (s : State) : closeLine l s =
    if l.index = 2055 then endByFadeOrLimit .limit (setLfr { (joinTail l s).lfr with line := none } (joinTail l s))
    else setLfr { (joinTail l s).lfr with line := some (lineAt (joinTail l s).lfr (l.index + 1)) } (joinTail l s) :=
  rfl

/-- Z (R25): one period past the last pulse. -/
def zeroOf (last : Pulse) (f : Lfr) : FinePosition := finePosition last.pos + BitVec.ofNat 44 (f.period.getD 0)

/-- The framer at IMAGE entry, when the slot is asked for (R25, R28). -/
def enteredFramer (last : Pulse) (now : Nat) (f : Lfr) : Lfr :=
  let entered := { f with
    state := .image, zero := some (zeroOf last f), tLocal := some now, phasingSince := none, missCount := 0,
    fadedCount := 0, highest := none, tail := [], bound := none }
  { entered with line := some (lineAt entered 0) }

/-- The CST's answer at IMAGE entry (R28, R59). -/
def entryAnswer (r : Rate) (last : Pulse) (s : State) : State × Option SlotNo :=
  requestSlot r s.now (setLfr (enteredFramer last s.now s.lfr) s)

theorem entryAnswer_lfr (r : Rate) (last : Pulse) (s : State) :
    (entryAnswer r last s).1.lfr = enteredFramer last s.now s.lfr := by simp [entryAnswer]

/-- IMAGE entry: the CST's answer is bound, then the words of the history from Z on are taken again (R28). -/
theorem enterImage_eq {s : State} {last : Pulse} (h : s.lfr.pulses.getLast? = some last) (r : Rate) :
    enterImage r s = (wordsFrom (wordOf (zeroOf last s.lfr)) s.lfr.history).foldl (fun u w => imageWord w u)
      (setLfr { enteredFramer last s.now s.lfr with bound := (entryAnswer r last s).2 } (entryAnswer r last s).1) := by
  have hentry : enterImage r s =
      (wordsFrom (wordOf (zeroOf last s.lfr)) (entryAnswer r last s).1.lfr.history).foldl (fun u w => imageWord w u)
        (setLfr { (entryAnswer r last s).1.lfr with bound := (entryAnswer r last s).2 } (entryAnswer r last s).1) := by
    simp only [enterImage, h]
    rfl
  rw [hentry, entryAnswer_lfr]
  rfl

section
variable {s : State}

theorem Fits.commitLine (h : Fits s) {l : TailLine} (hl : l.copy.pixels.length = 1200) : Fits (commitLine l s) := by
  have hnoted : Fits (Machine.setLfr { s.lfr with highest := some l.index } s) := h.setLfr { h.framer with }
  unfold Machine.commitLine
  dsimp only
  split
  · exact hnoted.bump 13 1
  · exact hnoted.commitCopy _ _ hl

theorem Fits.setTail (h : Fits s) {tail : List TailLine} (hlen : tail.length ≤ 9)
    (hcopies : ∀ t ∈ tail, t.copy.pixels.length = 1200) : Fits (setTail tail s) :=
  h.setLfr { h.framer with tail := hlen, copies := hcopies }

theorem Fits.setLine (h : Fits s) {l : LineInProgress} (hl : l.pixels.length = 1200) :
    Fits (Machine.setLfr { s.lfr with line := some l } s) :=
  h.setLfr { h.framer with line := fun _ e => Option.some.inj e ▸ hl }

theorem Fits.commitDue (pos : Position) {tail : List TailLine} (hlen : tail.length ≤ 9)
    (hcopies : ∀ t ∈ tail, t.copy.pixels.length = 1200) {s : State} (h : Fits s) : Fits (commitDue pos tail s) := by
  induction tail generalizing s with
  | nil => exact h.setTail hlen hcopies
  | cons l rest ih =>
    obtain ⟨hl, hrest⟩ := List.forall_mem_cons.mp hcopies
    unfold Machine.commitDue
    split
    · exact ih ((Nat.le_succ _).trans hlen) hrest (h.commitLine hl)
    · exact h.setTail hlen hcopies

/-- Sizes are kept by a run over a list when each of its acts keeps them. -/
theorem Fits.foldl {α : Type} {l : List α} {act : State → α → State}
    (hact : ∀ a ∈ l, ∀ {s}, Fits s → Fits (act s a))
    {s : State} (h : Fits s) : Fits (l.foldl act s) := by
  induction l generalizing s with
  | nil => exact h
  | cons a rest ih =>
    obtain ⟨ha, hrest⟩ := List.forall_mem_cons.mp hact
    exact ih hrest (ha h)

theorem Fits.commitTail (h : Fits s) (keep : TailLine → Bool) : Fits (commitTail keep s) :=
  (h.foldl fun t ht _ hs => hs.commitLine (h.framer.copies t (List.mem_of_mem_filter ht))).setTail (Nat.zero_le _)
    (fun _ ht => by cases ht)

theorem Fits.finishImage (h : Fits s) (reason : CloseReason) (seen : Bool) : Fits (finishImage reason seen s) := by
  have htold : Fits (match s.lfr.bound with
      | none => s
      | some i => Machine.endLocalImage i reason s.lfr.highest s) := by
    split
    · exact h
    · exact h.endLocalImage _ _ _
  exact (htold.raiseNote _ _ _).setLfr ((htold.raiseNote _ _ _).framer.returnToIdle _)

theorem Fits.endByTone (h : Fits s) (reason : CloseReason) (p : Position) (seen : Bool) :
    Fits (endByTone reason p seen s) := (h.commitTail _).finishImage _ _

theorem Fits.endByFadeOrLimit (h : Fits s) (reason : CloseReason) : Fits (endByFadeOrLimit reason s) :=
  (h.commitTail _).finishImage _ _

/-- Behind the commit of a full tail's head there is room for one line more. -/
theorem Fits.makeRoom (h : Fits s) : Fits (makeRoom s) ∧ (makeRoom s).lfr.tail.length ≤ 8 := by
  unfold Machine.makeRoom
  split
  · next htail => exact ⟨h, by simp [htail]⟩
  · next head rest htail =>
    have hlen := h.framer.tail
    have hcopies := h.framer.copies
    rw [htail] at hlen hcopies
    obtain ⟨hhead, hrest⟩ := List.forall_mem_cons.mp hcopies
    split
    · exact ⟨(h.commitLine hhead).setTail ((Nat.le_succ _).trans hlen) hrest, Nat.le_of_succ_le_succ hlen⟩
    · next hroom => exact ⟨h, Nat.le_of_lt_succ (Nat.not_le.mp hroom)⟩

theorem Fits.joinTail (h : Fits s) {l : LineInProgress} (hl : l.pixels.length = 1200) : Fits (joinTail l s) := by
  obtain ⟨hroom, hlen⟩ := (h.bump 0 1).makeRoom
  refine hroom.setTail (by simpa using Nat.lt_succ_of_le hlen) fun t ht => ?_
  rcases List.mem_append.mp ht with ht | ht
  · exact hroom.framer.copies t ht
  · rw [List.mem_singleton.mp ht]
    exact (formCopy_pixels_length _ l).trans hl

theorem Fits.closeLine (h : Fits s) {l : LineInProgress} (hl : l.pixels.length = 1200) : Fits (closeLine l s) := by
  have hjoined := h.joinTail hl
  have hlast : Fits (Machine.setLfr { (Machine.joinTail l s).lfr with line := none } (Machine.joinTail l s)) :=
    hjoined.setLfr { hjoined.framer with line := fun _ e => by cases e }
  rw [closeLine_eq]
  split
  · exact hlast.endByFadeOrLimit _
  · exact hjoined.setLine (by simp)

theorem Fits.imageWord (h : Fits s) (w : HeardWord) : Fits (imageWord w s) := by
  unfold Machine.imageWord
  split
  · next l _ hl =>
    dsimp only
    have hcut : Fits (if isBefore w.pos l.next then s else Machine.closeLine l s) := by
      split
      · exact h
      · exact h.closeLine (h.framer.line l hl)
    split
    · exact hcut
    · next l' hl' =>
      exact (hcut.setLine (by simpa using hcut.framer.line l' hl')).commitDue w.pos hcut.framer.tail hcut.framer.copies
  · exact h

theorem Fits.enterImage (h : Fits s) (r : Rate) : Fits (enterImage r s) := by
  cases hlast : s.lfr.pulses.getLast? with
  | none => simpa only [Machine.enterImage, hlast] using h
  | some last =>
    have hframer : (enteredFramer last s.now s.lfr).Sized :=
      ⟨h.framer.history, h.framer.pulses, Nat.zero_le _, fun _ e => Option.some.inj e ▸ lineAt_pixels_length _ _,
        fun _ ht => (by cases ht)⟩
    rw [enterImage_eq hlast]
    exact Fits.foldl (fun w _ _ hs => hs.imageWord w) (((h.setLfr hframer).requestSlot r _).setLfr { hframer with })

theorem Fits.takeMiss (h : Fits s) (r : Rate) : Fits (takeMiss r s) := by
  unfold Machine.takeMiss
  split
  · exact h.setLfr { h.framer with }
  · split
    · exact h.enterImage r
    · exact h.setLfr (h.framer.returnToIdle _)

theorem Fits.decideMiss (h : Fits s) (w : HeardWord) : Fits (decideMiss w s) := by
  unfold Machine.decideMiss
  split
  · split
    · exact h.takeMiss _
    · exact h
  · exact h

theorem Fits.framerWord (h : Fits s) (w : HeardWord) : Fits (framerWord w s) := by
  have hdetected : Fits (Machine.setLfr (detectPulse w s.now s.lfr) s) := h.setLfr (h.framer.detectPulse w _)
  unfold Machine.framerWord
  dsimp only
  split
  · exact hdetected.imageWord w
  · exact hdetected.decideMiss w

theorem Fits.imageFade (h : Fits s) (faded : Bool) : Fits (imageFade faded s) := by
  have hcount (n : Nat) : Fits (Machine.setLfr { s.lfr with fadedCount := n } s) := h.setLfr { h.framer with }
  unfold Machine.imageFade
  split
  · exact hcount 0
  · dsimp only
    split
    · exact hcount _
    · split
      · exact h.endByFadeOrLimit _
      · exact (hcount 0).raiseNote _ _ _
      · exact hcount 0

theorem Fits.imageReport (h : Fits s) (r : WindowReport) : Fits (imageReport r s) := by
  unfold Machine.imageReport
  split
  · exact h.endByTone _ _ _
  · exact h.endByTone _ _ _
  · split <;> exact h.endByTone _ _ _
  · exact h.imageFade _

theorem Fits.framerReport (h : Fits s) (r : WindowReport) : Fits (framerReport r s) := by
  have hseen : Fits (Machine.setLfr { s.lfr with startSeen := true } s) := h.setLfr { h.framer with }
  unfold Machine.framerReport
  split
  · split
    · exact hseen
    · exact h
  · split
    · exact h.setLfr (h.framer.returnToIdle _)
    · split
      · exact hseen
      · exact h
  · exact h.imageReport r

/-! ### Windows and words -/

theorem Fits.windowMarks (h : Fits s) (b : BootFields) (l : Lcu) : Fits (windowMarks b l s) := by
  have hfaded : Fits (countFaded b l.acc s) := by
    unfold countFaded; split
    · exact h.bump _ _
    · exact h
  have hnoted : Fits (noteReset (tuneWindow b l.acc l).2 (countFaded b l.acc s)) := by
    unfold noteReset; split
    · exact hfaded
    · exact hfaded.raiseNote _ _ _
  unfold Machine.windowMarks markClipped
  split
  · exact (hnoted.bump 14 1).raiseNote _ _ _
  · exact hnoted

theorem Fits.closeWindow (h : Fits s) (first : Position) : Fits (closeWindow first s) := by
  rw [closeWindow_eq]
  exact ((h.windowMarks _ _).setLcu _).framerReport _

theorem Fits.takeWord (h : Fits s) (bits : BitVec 16) : Fits (takeWord bits s) := by
  rcases Nat.lt_or_ge (s.lcu.windowCount + 1) 1200 with hc | hc
  · rw [takeWord_inside hc]
    exact (h.setLcu _).framerWord _
  · rw [takeWord_closing hc]
    exact ((h.setLcu _).framerWord _).closeWindow _

end

/-! ### Heard frames -/

/-- The data of a TALLY as read carry 32 codes (R180). -/
theorem readData_tally_length {k : Kind} {data : List Byte} {key : Key} {base : BitVec 16} {codes : List (BitVec 4)}
    (h : readData k data = some (.tallyF key base codes)) : codes.length = 32 := by
  have hunpack (bytes : List Byte) : (unpackCodes bytes).length = 2 * bytes.length := by
    induction bytes with
    | nil => rfl
    | cons b rest ih => simp only [unpackCodes, List.length_cons, ih]; omega
  unfold readData at h
  split at h
  case h_5 =>
    split at h
    · next hlen => cases h; rw [hunpack, hlen]
    · cases h
  all_goals (try split at h) <;> cases h

/-- A TALLY in a payload carries at most the 32 codes of its block. -/
def Payload.TallyFits (p : Payload) : Prop := ∀ k base codes, p = .tallyF k base codes → codes.length = 32

/-- A payload the SLC hands on is one read from a frame's data. -/
theorem fateOf_tallyFits {own : Receiver} {bits : List Bool} {sender : Station} {p : Payload}
    (h : fateOf own bits = some (.heard sender p)) : p.TallyFits := by
  intro k base codes hp
  unfold fateOf intactFate at h
  split at h
  · cases h
  · cases h
  · split at h
    · cases h
    · split at h
      · split at h
        · next hread =>
          cases h
          obtain ⟨kind, _, hdata⟩ := Option.bind_eq_some_iff.mp hread
          exact readData_tally_length (hp ▸ hdata)
        · cases h
      · cases h

/-- A block's lines are lines of a chart (R118, R138). -/
theorem baseOk_le {base : BitVec 16} (h : baseOk base = true) : base.toNat ≤ 2016 := by
  simp only [baseOk, Bool.and_eq_true, decide_eq_true_eq] at h
  exact h.2

section
variable {s : State}

theorem Fits.replaceKeyEverywhere (h : Fits s) (old new : Key) : Fits (replaceKeyEverywhere old new s) :=
  (((h.setQueue (requestEntries_sized h.queue _ _)).setClaims (by simpa using h.claims))).setBuild _

theorem Fits.withdrawOpen (h : Fits s) (i : SlotNo) (o tPeer : Int) (heard : Key) :
    Fits (withdrawOpen i o tPeer heard s) := by
  unfold Machine.withdrawOpen
  split
  · exact h
  · exact ((((h.withdrawEntries _ _).setOpenReq _ _).updateChart _ _).replaceKeyEverywhere _ _).raiseNote _ _ _

theorem Fits.recordAlias (h : Fits s) (i : SlotNo) (heard : Key) : Fits (recordAlias i heard s) := by
  unfold Machine.recordAlias
  split
  · exact h
  · split
    · exact h
    · dsimp only
      split
      · exact ((h.setChart _ _).raiseNote _ _ _).queueOpen _ _
      · exact (h.setChart _ _).raiseNote _ _ _

theorem Fits.adoptChart (h : Fits s) (heard : Key) (tag : Nat) (rate : Rate) (tPeer : Int) :
    Fits (adoptChart heard tag rate tPeer s) := by
  unfold Machine.adoptChart
  dsimp only
  split
  · exact h.findSlot.allocationFailed _ _
  · exact h.findSlot.installChart _ _

theorem Fits.takeOpen (h : Fits s) (heard : Key) (tag : Nat) (rate : Rate) (tPeer : Int) :
    Fits (takeOpen heard tag rate tPeer s) := by
  unfold Machine.takeOpen
  split
  · exact h.withdrawOpen _ _ _ _
  · split
    · exact h.recordAlias _ _
    · exact h.adoptChart _ _ _ _

theorem Fits.judgeOpen (h : Fits s) (sender : Station) (stamp : Nat) (k : Key) (tag rate : Byte) (delay : BitVec 16) :
    Fits (judgeOpen sender stamp k tag rate delay s) := by
  unfold Machine.judgeOpen
  split
  · exact h.bump 5 1
  · split
    · exact h.bump 5 1
    · split
      · exact h
      · exact h.takeOpen _ _ _ _

theorem Fits.judgeClose (h : Fits s) (k : Key) (length : BitVec 16) (reason : Byte) :
    Fits (judgeClose k length reason s) := by
  unfold Machine.judgeClose
  split
  · exact h.bump 5 1
  · split
    · exact h.bump 5 1
    · split
      · exact h
      · dsimp only
        split
        · split
          · exact (h.updateChart _ _).closeSlot _ _
          · exact h.updateChart _ _
        · exact h.updateChart _ _

theorem Fits.judgeDrop (h : Fits s) (k : Key) : Fits (judgeDrop k s) := by
  unfold Machine.judgeDrop
  split
  · exact h
  · split
    · exact h
    · split
      · exact (h.freeSlot _).raiseNote _ _ _
      · exact h

theorem Fits.writeCodes (i : SlotNo) (r : Receiver) {codes : List (BitVec 4)} {j : Nat}
    (hj : j + codes.length ≤ 2048) {s : State} (h : Fits s) : Fits (writeCodes i r j codes s) := by
  induction codes generalizing j s with
  | nil => exact h
  | cons c rest ih =>
    rw [List.length_cons] at hj
    exact ih (by omega) (h.setPeerCode i r (by omega) (Nat.le_of_lt_succ c.isLt))

theorem Fits.judgeTally (h : Fits s) (sender : Station) (k : Key) (base : BitVec 16) {codes : List (BitVec 4)}
    (hcodes : codes.length = 32) : Fits (judgeTally sender k base codes s) := by
  unfold Machine.judgeTally
  split
  · exact h
  · split
    · exact h.bump 5 1
    · next hbase =>
      have hle := baseOk_le (base := base) (by simpa using hbase)
      split
      · exact h
      · exact h.writeCodes _ _ (by omega)

theorem Fits.queueTallies (i : SlotNo) (frames : Nat) (blocks : List Nat) {s : State} (h : Fits s) :
    Fits (queueTallies i frames blocks s) := by
  induction blocks generalizing frames s with
  | nil => cases frames <;> exact h
  | cons b rest ih =>
    cases frames with
    | zero => exact h
    | succ n =>
      unfold Machine.queueTallies
      split
      · exact h
      · dsimp only
        split
        · exact ih n ((h.enqueue _).updateChart _ _)
        · exact h.enqueue _

theorem Fits.tallyRound (h : Fits s) : Fits (tallyRound s) := by
  unfold Machine.tallyRound
  split
  · exact h
  · next i _ =>
    have hmoved : Fits { s with xen := { s.xen with tallyPtr := i + 1 } } := h.of_eq
    dsimp only
    split
    · exact hmoved
    · exact hmoved.queueTallies _ _ _

theorem Fits.wantRound (h : Fits s) (i : SlotNo) : Fits (wantRound i s) := by
  unfold Machine.wantRound
  split
  · exact h
  · split
    · exact h
    · dsimp only
      split
      · exact (h.enqueue _).bump 11 1
      · exact h.enqueue _

/-- Candidates are taken only as far as the claim table has room (R136, R137). -/
theorem Fits.answerWant (h : Fits s) (i : SlotNo) (base : Nat) (mask : BitVec 32) (codes : List (BitVec 4)) :
    Fits (answerWant i base mask codes s) := by
  unfold Machine.answerWant
  split
  · exact h
  · next c _ =>
    dsimp only
    split
    · exact h.bump _ _
    · split
      · refine ((h.bump _ _).enqueue _).setClaims ?_
        have hroom := h.claims
        simp only [enqueue_keeps, bump_xen, List.length_append, List.length_map, List.length_take, Config.claimRoom]
        omega
      · exact (h.bump _ _).enqueue _

theorem Fits.judgeWant (h : Fits s) (k : Key) (base : BitVec 16) (mask : BitVec 32) (codes : List (BitVec 4))
    (stations : BitVec 16) : Fits (judgeWant k base mask codes stations s) := by
  unfold Machine.judgeWant
  split
  · exact h.bump 5 1
  · split
    · exact h
    · split
      · exact (h.updateChart _ _).answerWant _ _ _ _
      · exact h

theorem Fits.yieldPending (h : Fits s) (key : Key) (base place code : Nat) :
    Fits (yieldPending key base place code s) := by
  unfold Machine.yieldPending
  split
  · exact h
  · split
    · exact h
    · exact ((h.dropClaims _).withdrawEntries _ _).bump 9 1

/-- A HEARD entry is made only when the claim table has room (R137, R140). -/
theorem Fits.recordHeard (h : Fits s) (key : Key) (index : Nat) (r : Receiver) (stamp : Nat) :
    Fits (recordHeard key index r stamp s) := by
  unfold Machine.recordHeard
  dsimp only
  split
  · next hroom => exact h.setClaims (by simpa [Config.claimRoom] using hroom)
  · exact h.bump 13 1

theorem Fits.takeClaimLines (i : SlotNo) (key : Key) (r : Receiver) {base : Nat} (hbase : base ≤ 2016) (stamp : Nat)
    (codes : List (BitVec 4)) {places : List Nat} (hplaces : ∀ p ∈ places, p < 32) {s : State} (h : Fits s) :
    Fits (takeClaimLines i key r base stamp codes places s) := by
  induction places generalizing s with
  | nil => exact h
  | cons p rest ih =>
    obtain ⟨hp, hrest⟩ := List.forall_mem_cons.mp hplaces
    exact ih hrest (((h.yieldPending _ _ _ _).recordHeard _ _ _ _).setPeerCode i r (by omega)
      (Nat.le_of_lt_succ (codes.getD p 0).isLt))

theorem maskPlaces_lt {mask : BitVec 32} {p : Nat} (h : p ∈ maskPlaces mask) : p < 32 :=
  List.mem_range.mp (List.mem_of_mem_filter h)

theorem Fits.judgeClaim (h : Fits s) (sender : Station) (stamp : Nat) (k : Key) (base : BitVec 16) (mask : BitVec 32)
    (codes : List (BitVec 4)) : Fits (judgeClaim sender stamp k base mask codes s) := by
  unfold Machine.judgeClaim
  split
  · exact h
  · split
    · exact h.bump 5 1
    · next hbase =>
      rw [Bool.or_eq_true, not_or, Bool.not_eq_true', Bool.not_eq_false] at hbase
      split
      · exact h
      · split
        · exact h
        · exact h.takeClaimLines _ _ _ (baseOk_le hbase.1) _ _ fun _ => maskPlaces_lt

/-! ### Completions, silent mode and lapses -/

theorem Fits.openCompletion (h : Fits s) (e : Entry) (key : Key) (delay : BitVec 16) (sent : Bool) :
    Fits (openCompletion e key delay sent s) := by
  have hanswered : Fits (match e.slot with
      | none => s
      | some i =>
        match recordAt s i with
        | none => s
        | some c =>
          if c.key = key then Machine.setOpenReq i (if !sent && c.state == .live then .owed else .nothing) s
          else s) := by
    split
    · exact h
    · split
      · exact h
      · split
        · exact h.setOpenReq _ _
        · exact h
  unfold Machine.openCompletion
  dsimp only
  split
  · exact hanswered.raiseNote _ _ _
  · exact hanswered

theorem Fits.activateLines (key : Key) (base stamp : Nat) (places : List Nat) {s : State} (h : Fits s) :
    Fits (activateLines key base stamp places s) := by
  induction places generalizing s with
  | nil => exact h
  | cons p rest ih =>
    unfold Machine.activateLines
    dsimp only
    refine ih ?_
    split
    · exact ((h.setClaims (by simpa using h.claims)).setBuild _).bump 8 1
    · exact h

theorem Fits.claimCompletion (h : Fits s) (key : Key) (base : BitVec 16) (mask : BitVec 32) (stamp : Nat)
    (sent : Bool) :
    Fits (claimCompletion key base mask stamp sent s) := by
  unfold Machine.claimCompletion
  split
  · exact (h.activateLines _ _ _ _).tryBuild
  · exact h.dropClaims _

theorem Fits.lineCompletion (h : Fits s) (key : Key) (index count fragment : Nat) (sent : Bool) :
    Fits (lineCompletion key index count fragment sent s) := by
  unfold Machine.lineCompletion
  split
  · split
    · dsimp only
      split
      · exact h.dropClaims _
      · exact (h.dropClaims _).updateChart _ _
    · exact h
  · exact (h.dropClaims _).withdrawEntries _ _

theorem Fits.ownerCompletion (h : Fits s) (e : Entry) (stamp : Nat) (sent : Bool) :
    Fits (ownerCompletion e stamp sent s) := by
  unfold Machine.ownerCompletion
  split
  · exact h.openCompletion _ _ _ _
  · exact h.claimCompletion _ _ _ _ _
  · exact h.lineCompletion _ _ _ _ _
  · exact h

theorem Fits.enterSilent (h : Fits s) : Fits (enterSilent s) := by
  have hflushed : Fits { s with slc := { s.slc with
      silent := some (s.now + Config.silentMs), damageRun := 0,
      queue := s.slc.queue.filter (fun e => !e.payload.isLine) } } :=
    h.setSlc (h.queue.sublist List.filter_sublist)
  exact (hflushed.foldl fun l _ _ hs => (hs.dropClaims _).dropBuildLine l.1 l.2).raiseNote _ _ _

theorem Fits.lapseOwn (h : Fits s) (key : Key) (index : Nat) : Fits (lapseOwn key index s) := by
  have hdropped := ((h.dropClaims (Claim.isActiveOf key index)).bump 10 1).dropBuildLine key index
  exact (hdropped.setQueue (requestEntries_sized hdropped.queue _ _)).retryBuild s

/-! ### Reassembly -/

theorem Fits.dropAssembly (h : Fits s) (r : Receiver) (key : Key) (index : Nat) : Fits (dropAssembly r key index s) :=
  h.setAssemblies ((List.length_filter_le ..).trans h.assemblies)

/-- The code of a quality up to 100 is a code of a frame (R48). -/
theorem qualityCode_le {q : Nat} (h : q ≤ 100) : qualityCode q ≤ 15 := by
  unfold qualityCode; omega

/-- A line is offered only with 1,200 pixels and a quality up to 100 (R52, R153). -/
theorem Fits.completeLine (h : Fits s) (i : SlotNo) (r : Receiver) (key : Key) {index : Nat} (hindex : index < 2048)
    (q u : Nat) (bytes : List Byte) : Fits (completeLine i r key index q u bytes s) := by
  unfold Machine.completeLine
  split
  · exact h
  · next c _ =>
    have hdropped := (h.dropClaims (Claim.isHeardOf c.key index r)).dropAssembly r key index
    dsimp only
    split
    · exact hdropped.bump 5 1
    · next hpixels =>
      split
      · exact hdropped.bump 5 1
      · next hrange =>
        exact (hdropped.mergeOffer i key index (not_not.mp hpixels)).setPeerCode i r hindex
          (qualityCode_le (Nat.not_lt.mp (not_or.mp hrange).1))

theorem foldl_min_mem (a : Nat) (l : List Nat) : l.foldl min a ∈ a :: l := by
  induction l generalizing a with
  | nil => exact List.mem_singleton.mpr rfl
  | cons b rest ih =>
    rw [List.foldl_cons]
    rcases List.mem_cons.mp (ih (min a b)) with hm | hm
    · rw [hm]
      rcases min_choice a b with hc | hc <;> rw [hc] <;> simp
    · exact List.mem_cons_of_mem _ (List.mem_cons_of_mem _ hm)

/-- A table that is not empty has an oldest reception in it (R151). -/
theorem oldestAssembly_lt {as : List Assembly} (h : as ≠ []) :
    ∃ n, oldestAssembly as = some n ∧ n < as.length := by
  obtain ⟨a, rest, rfl⟩ := List.exists_cons_of_ne_nil h
  obtain ⟨x, hx, hstart⟩ := List.mem_map.mp
    (foldl_min_mem a.start (rest.map (·.start)) : _ ∈ (a :: rest).map (·.start))
  cases hfind : (a :: rest).findIdx? (fun x => x.start == (rest.map (·.start)).foldl min a.start) with
  | none =>
    have := List.findIdx?_eq_none_iff.mp hfind x hx
    simp [hstart] at this
  | some n => exact ⟨n, hfind, (List.findIdx?_eq_some_iff_getElem.mp hfind).1⟩

/-- A reception joins a full table only when the oldest has left (R151). -/
theorem Fits.addAssembly (h : Fits s) (a : Assembly) : Fits (addAssembly a s) := by
  have hsize := h.assemblies
  unfold Machine.addAssembly
  split
  · next hroom => exact h.setAssemblies (by simpa [Config.assemblyRoom] using hroom)
  · next hfull =>
    simp only [Config.assemblyRoom] at hfull
    obtain ⟨n, hn, hlt⟩ := oldestAssembly_lt (as := s.xen.assemblies) (by intro e; simp [e] at hfull)
    rw [hn]
    refine (h.bump 5 1).setAssemblies ?_
    rw [List.length_append, List.length_eraseIdx_of_lt hlt, List.length_singleton]
    omega

theorem Fits.firstFragment (h : Fits s) (i : SlotNo) {a : Assembly} (ha : a.index < 2048) :
    Fits (firstFragment i a s) := by
  unfold Machine.firstFragment
  split
  · exact h.completeLine _ _ _ ha _ _ _
  · split
    · exact h.setAssemblies (by simpa using h.assemblies)
    · exact h.addAssembly _

theorem Fits.laterFragment (h : Fits s) (i : SlotNo) {f : Assembly} (hf : f.index < 2048) (fragment : Nat) :
    Fits (laterFragment i f fragment s) := by
  unfold Machine.laterFragment
  split
  · exact h.bump 5 1
  · split
    · dsimp only
      split
      · exact h.completeLine _ _ _ hf _ _ _
      · exact h.setAssemblies (by simpa using h.assemblies)
    · exact (h.dropAssembly _ _ _).bump 5 1

theorem Fits.judgeLine (h : Fits s) (sender : Station) (stamp : Nat) (k : Key) (index : BitVec 16)
    (count fragment : BitVec 4) (q : Byte) (u : BitVec 16) (runs : List Byte) :
    Fits (judgeLine sender stamp k index count fragment q u runs s) := by
  unfold Machine.judgeLine
  split
  · exact h
  · split
    · exact h.bump 5 1
    · next hranges =>
      have hindex : index.toNat < 2048 := by
        simp only [Config.chartLines] at hranges
        omega
      split
      · exact h
      · dsimp only
        split
        · exact h.firstFragment _ hindex
        · exact h.laterFragment _ hindex _

/-! ### Station services and reception -/

theorem Fits.markPresent (h : Fits s) (sender : Station) (stamp : Nat) : Fits (markPresent sender stamp s) := by
  unfold Machine.markPresent
  split
  · exact h.setPeer _ _
  · dsimp only
    split
    · exact (h.setPeer _ _).setAllDirty
    · exact h.setPeer _ _

theorem Fits.declareAbsent (h : Fits s) (st : Station) : Fits (declareAbsent st s) := by
  unfold Machine.declareAbsent
  dsimp only
  refine Fits.raiseNote ?_ _ _ _
  split
  · exact (h.setPeer _ _).clearColumn _
  · exact h.setPeer _ _

theorem Fits.judgeRoster (h : Fits s) (sender : Station) (kind tag : Byte) : Fits (judgeRoster sender kind tag s) := by
  unfold Machine.judgeRoster
  split
  · exact h.bump 5 1
  · split
    · split
      · exact h.setPeer _ _
      · exact h
    · exact h.bump 5 1

theorem Fits.judgeAsk (h : Fits s) (sender : Station) (target k : Byte) : Fits (judgeAsk sender target k s) := by
  unfold Machine.judgeAsk
  split
  · exact h
  · dsimp only
    split
    · exact h.enqueue _
    · split
      · exact h
      · exact (h.updateChart _ _).enqueue _

/-- A link restart empties queue, views, claim table and receptions (R97, R116, R133, R155). -/
theorem Fits.clearExchange (h : Fits s) : Fits (clearExchange (flushQueue s)) where
  __ := h
  queue := ⟨Nat.zero_le _, Nat.zero_le _⟩
  claims := Nat.zero_le _
  assemblies := Nat.zero_le _
  views i r := by simpa [Machine.clearExchange] using viewFits_empty r

theorem Fits.linkRestart (h : Fits s) (sender : Station) (stamp : Nat) : Fits (linkRestart sender stamp s) := by
  have hforgotten : Fits { Machine.setAllDirty (Machine.clearExchange (flushQueue s)) with
      ssv := { (Machine.setAllDirty (Machine.clearExchange (flushQueue s))).ssv with
        peers := Vector.replicate 16 none } } := h.clearExchange.setAllDirty.of_eq
  exact (hforgotten.markPresent _ _).enqueue _

theorem Fits.judgeRestart (h : Fits s) (sender : Station) (stamp : Nat) (mask : BitVec 16) :
    Fits (judgeRestart sender stamp mask s) := by
  unfold Machine.judgeRestart
  split
  · exact h.linkRestart _ _
  · exact h

theorem Fits.minuteReport (h : Fits s) : Fits (minuteReport s) := by
  have hcleared : Fits { s with ssv := { s.ssv with counters := Vector.replicate 16 0 } } :=
    { h with counters := fun i => by simp }
  exact hcleared.enqueue _

theorem Fits.dispatch (h : Fits s) (sender : Station) (stamp : Nat) {p : Payload} (hp : p.TallyFits) :
    Fits (dispatch sender stamp p s) := by
  cases p with
  | openF => exact h.judgeOpen _ _ _ _ _ _
  | closeF => exact h.judgeClose _ _ _
  | dropF => exact h.judgeDrop _
  | tallyF => exact h.judgeTally _ _ _ (hp _ _ _ rfl)
  | wantF => exact h.judgeWant _ _ _ _ _
  | claimF => exact h.judgeClaim _ _ _ _ _ _
  | lineF => exact h.judgeLine _ _ _ _ _ _ _ _ _
  | restartF => exact h.judgeRestart _ _ _
  | askF => exact h.judgeAsk _ _ _
  | rosterF => exact h.judgeRoster _ _ _
  | describeNullF | describeF | noteF | reportF => exact h

theorem Fits.takeFrame (h : Fits s) (sender : Station) {p : Payload} (hp : p.TallyFits) :
    Fits (takeFrame sender p s) := by
  have hmarked := (h.markPresent sender s.now).bump 4 1
  refine Fits.dispatch ?_ sender s.now hp
  unfold refreshOf
  split
  · exact hmarked.refreshReference _ _
  · exact hmarked

theorem Fits.takeFate (h : Fits s) {own : Receiver} {bits : List Bool} {f : Fate} (hf : fateOf own bits = some f) :
    Fits (takeFate f s) := by
  cases f with
  | damaged => exact h.bump 5 1
  | clash => exact (h.bump 5 1).raiseNote _ _ _
  | malformed sender => exact (h.markPresent _ _).bump 5 1
  | heard sender p => exact h.takeFrame sender (fateOf_tallyFits hf)

theorem Fits.frameEnded (h : Fits s) (recessive : Nat) : Fits (frameEnded recessive s) := h.setSlc h.queue

theorem Fits.frameEvent (h : Fits s) (named : Fate → Bool) (t : Nat) (bits : List Bool) :
    Fits (frameEvent named t bits s) := by
  unfold Machine.frameEvent
  dsimp only
  split
  · split
    · next hf =>
      split
      · exact ((h.advance t).frameEnded _).takeFate hf
      · exact h.advance t
    · exact h.advance t
  · exact h.advance t

/-! ### The share line -/

theorem Fits.loseArbitration (h : Fits s) (e : Entry) (bit : Nat) : Fits (loseArbitration e bit s) := by
  unfold Machine.loseArbitration
  dsimp only
  split
  · exact (h.setSlc (loseQueue_sized h.queue)).tryBuild
  · exact h.setSlc (loseQueue_sized h.queue)

theorem Fits.lineAfterSend (h : Fits s) (own : Receiver) (e : Entry) (outcome : SendOutcome) :
    Fits (lineAfterSend own e outcome s) := by
  cases outcome with
  | sent => exact h.frameEnded _
  | bitError => exact h.setSlc h.queue
  | damagedEcho => exact (h.setSlc (l := stopDriving _ s.slc) h.queue).frameEnded _

theorem Fits.countCompletion (h : Fits s) (outcome : SendOutcome) : Fits (countCompletion outcome s) := by
  cases outcome with
  | sent => exact h.bump 6 1
  | bitError => exact h.bump 7 1
  | damagedEcho => exact (h.bump 7 1).bump 5 1

theorem Fits.ite {p : Prop} [Decidable p] {a b : State} (ha : Fits a) (hb : Fits b) : Fits (if p then a else b) := by
  split
  · exact ha
  · exact hb

theorem Fits.completeSend (h : Fits s) (e : Entry) (outcome : SendOutcome) : Fits (completeSend e outcome s) := by
  have hcounted := (h.lineAfterSend s.ssv.own e outcome).countCompletion outcome
  refine Fits.ite (Fits.enterSilent (Fits.ownerCompletion (Fits.tryBuild ?left) _ _ _))
    (Fits.ownerCompletion (Fits.tryBuild ?left) _ _ _)
  exact hcounted.setSlc (hcounted.queue.sublist List.filter_sublist)

/-! ### Timers, boot and idle step -/

theorem Fits.wantExpiry (h : Fits s) (i : SlotNo) (due : Nat) : Fits (wantExpiry i due s) := by
  refine Fits.wantRound ?_ i
  unfold resendOpen
  split
  · exact h.updateChart _ _
  · split
    · exact (h.updateChart _ _).queueOpen _ _
    · exact h.updateChart _ _

theorem Fits.sweepOver (h : Fits s) (i : SlotNo) : Fits (sweepOver i s) := by
  unfold Machine.sweepOver
  split
  · exact h.enterHeld _ _
  · exact h.updateChart _ _

theorem Fits.bootStep (h : Fits s) : Fits (bootStep s) := by
  unfold Machine.bootStep freeBootBus
  split
  · exact h
  · split
    · exact h.of_eq
    · split
      · exact h
      · dsimp only
        split <;> exact h.of_eq

theorem Fits.takeBootSteps (n : Nat) {s : State} (h : Fits s) : Fits (takeBootSteps n s) := by
  induction n generalizing s with
  | zero => exact h
  | succ n ih => exact ih h.bootStep

/-- Of what has a size a reset keeps the pages alone (R79, R169). -/
theorem Fits.enterReset (h : Fits s) : Fits (enterReset s) where
  framer := Lfr.reset_sized
  queue := ⟨Nat.zero_le _, Nat.zero_le _⟩
  claims := Nat.zero_le _
  assemblies := Nat.zero_le _
  counters i := by simp [Machine.enterReset, State.reset, Ssv.reset]
  pages := h.pages
  views i r := by simpa [Machine.enterReset, State.reset, Xen.reset] using viewFits_empty r

theorem Fits.idleStep (h : Fits s) : Fits (idleStep s) := by
  unfold Machine.idleStep
  split
  · exact h
  · exact h.bootStep
  · exact h.of_eq

/-- Every command keeps the sizes; the cases stand in the commands' order, each split along its guards. -/
theorem Fits.exec {c : Instr} {u : State} (h : Fits s) (hexec : exec c s = .next u) : Fits u := by
  have ha (t : Nat) := h.advance t
  cases c <;> cases hexec
  case reset.refl pin =>
    cases pin with
    | low => exact h.enterReset
    | released => dsimp only; split <;> exact h.of_eq
  case endOfBoot.refl n =>
    split
    · exact (h.takeBootSteps n).of_eq
    · exact h
  case levelWord.refl t word =>
    dsimp only
    split
    · exact (ha t).takeWord _
    · exact ha t
  case wordDiscard.refl t => exact ha t
  case gainDownEnd.refl t =>
    split
    · exact (ha t).setLcu _
    · exact ha t
  case phasingTimeout.refl t =>
    split
    · exact (ha t).setLfr ((ha t).framer.returnToIdle _)
    · exact ha t
  case lineIdle.refl t =>
    split
    · exact (ha t).of_eq
    · exact ha t
  case lineBusy.refl t =>
    split
    · exact ha t
    · split <;> exact (ha t).of_eq
  case frameStart.refl t =>
    split
    · split
      · exact (ha t).setSlc (startQueue_sized (ha t).queue _)
      · exact ha t
    · exact ha t
  case arbitrationLost.refl t bit =>
    split
    · split
      · exact (ha t).loseArbitration _ _
      · exact ha t
    · exact ha t
  case arbitrationWon.refl t =>
    split
    · exact (ha t).setSlc (winQueue_sized (ha t).queue _)
    · exact ha t
  case sendCompletion.refl t outcome =>
    split
    · split
      · exact (ha t).completeSend _ _
      · exact ha t
    · exact ha t
  case silentEnd.refl t =>
    split
    · have hfree := (ha t).setSlc (l := { (Machine.advance t s).slc with silent := none }) (ha t).queue
      exact (hfree.raiseNote _ _ _).tryBuild
    · exact ha t
  case frameDamaged.refl | frameMalformed.refl | clash.refl | openHeard.refl | closeHeard.refl | dropHeard.refl |
      tallyHeard.refl | wantHeard.refl | claimHeard.refl | lineHeard.refl | restartHeard.refl | askHeard.refl |
      rosterHeard.refl | infoHeard.refl => exact h.frameEvent _ _ _
  case tallyExpiry.refl t =>
    split
    · exact Fits.tallyRound (ha t).of_eq
    · exact ha t
  case wantTimerExpiry.refl t i =>
    split
    · split
      · exact (ha t).wantExpiry _ _
      · exact ha t
    · exact ha t
  case sweepDeadline.refl t i =>
    split
    · split
      · exact (ha t).sweepOver _
      · exact ha t
    · exact ha t
  case silenceClose.refl t i =>
    split
    · split
      · exact (ha t).closeSlot _ _
      · exact ha t
    · exact ha t
  case claimLapse.refl t key index =>
    split
    · split
      · exact (ha t).lapseOwn _ _
      · exact ha t
    · exact ha t
  case heardLapse.refl t key index r =>
    split
    · split
      · exact ((ha t).dropClaims _).bump 10 1
      · exact ha t
    · exact ha t
  case reassemblyTimeout.refl t r key index =>
    split
    · split
      · exact ((ha t).dropAssembly _ _ _).bump 5 1
      · exact ha t
    · exact ha t
  case peerAbsent.refl t st =>
    split
    · split
      · exact (ha t).declareAbsent _
      · exact ha t
    · exact ha t
  case rosterExpiry.refl t =>
    split
    · exact Fits.enqueue (ha t).of_eq _
    · exact ha t
  case minuteExpiry.refl t =>
    split
    · exact Fits.minuteReport (ha t).of_eq
    · exact ha t

theorem Fits.step {u : State} (h : Fits s) (hstep : step s = .next u) : Fits u := by
  unfold Machine.step at hstep
  split at hstep
  · cases hstep
    exact h.idleStep
  · exact Fits.exec (s := { s with pending := _ }) h.of_eq hstep

end

/-- Settles O54: `Fits` says the same of the parts of the state, and every operation a step is made of keeps it. -/
theorem stepKeepsBounds : Obligations.StepKeepsBounds :=
  fun _ _ h hstep => fits_iff.mp ((fits_iff.mpr h).step hstep)

/-! ## History, dark runs and pulses (R17 to R23) -/

theorem finePosition_toNat (p : Position) : (finePosition p).toNat = 16 * p.toNat := by
  have hp := p.isLt
  simp only [finePosition, BitVec.toNat_shiftLeft, BitVec.truncate_eq_setWidth, BitVec.toNat_setWidth, Nat.shiftLeft_eq]
  omega

theorem wordOf_toNat (z : FinePosition) : (wordOf z).toNat = z.toNat / 16 := by
  have hz := z.isLt
  simp only [wordOf, BitVec.truncate_eq_setWidth, BitVec.toNat_setWidth, BitVec.toNat_ushiftRight,
    Nat.shiftRight_eq_div_pow]
  omega

/-- The framer once a word is in its history and dark run, before a pulse is judged (R17, R18). -/
def heardFramer (w : HeardWord) (f : Lfr) : Lfr :=
  { f with history := pushHistory w f.history, darkRun := nextDarkRun w f.darkRun }

theorem setHistory_keeps (f : Lfr) (h : List HeardWord) (run : Option WordRun) :
    let u : Lfr := { f with history := h, darkRun := run }
    u.state = f.state ∧ u.rate = f.rate ∧ u.firstPulse = f.firstPulse ∧ u.pulses = f.pulses ∧
      u.period = f.period ∧
      u.missCount = f.missCount :=
  ⟨rfl, rfl, rfl, rfl, rfl, rfl⟩

@[simp] theorem heardFramer_keeps (w : HeardWord) (f : Lfr) :
    (heardFramer w f).state = f.state ∧ (heardFramer w f).rate = f.rate ∧
    (heardFramer w f).firstPulse = f.firstPulse ∧ (heardFramer w f).pulses = f.pulses ∧ (heardFramer w f).period = f.period ∧
    (heardFramer w f).missCount = f.missCount :=
  setHistory_keeps f (pushHistory w f.history) (nextDarkRun w f.darkRun)

theorem nextDarkRun_eq (w : HeardWord) (run : Option WordRun) : nextDarkRun w run =
    if w.valid = true ∧ w.level ≤ 64 then
      (match run with
        | none => some ⟨w.pos, 1⟩
        | some r => some ⟨r.first, min 385 (r.length + 1)⟩)
    else none := by
  cases run <;> simp [nextDarkRun, HeardWord.isDark]

theorem isLight_iff (w : HeardWord) : w.isLight = true ↔ w.valid = true ∧ 192 ≤ w.level := by
  simp [HeardWord.isLight]

section
variable {w : HeardWord} {now : Nat} {f : Lfr} {c : WordRun} {r : Rate}

/-- A word that ends no run brings no pulse (R18). -/
theorem detectPulse_quiet (h : ¬ (w.valid = true ∧ 192 ≤ w.level) ∨ f.darkRun = none) :
    detectPulse w now f = heardFramer w f := by
  have hnone : pulseCandidate w f.darkRun = none := by
    rcases h with h | h
    · exact if_neg (mt (isLight_iff w).mp h)
    · rw [h, pulseCandidate, ite_self]
  simp only [detectPulse, hnone, heardFramer]

/-- A light word brings the run it ends to judgement (R18, R19). -/
theorem detectPulse_light (h : w.valid = true ∧ 192 ≤ w.level) (hc : f.darkRun = some c) :
    detectPulse w now f = judgePulse c now (heardFramer w f) := by
  have hsome : pulseCandidate w f.darkRun = some c := by rw [pulseCandidate, if_pos ((isLight_iff w).mpr h), hc]
  simp only [detectPulse, hsome, heardFramer]

theorem judgePulse_image (h : f.state = .image) : judgePulse c now f = f := by
  simp [judgePulse, h]

theorem judgePulse_idle (h : f.state = .idle) :
    judgePulse c now f = if 24 ≤ c.length ∧ c.length ≤ 384 then idlePulse c now f else f := by
  simp [judgePulse, h, idleBand]

theorem judgePulse_phasing (h : f.state = .phasing) (hr : f.rate = some r) : judgePulse c now f =
    if rateWords r ≤ 50 * c.length ∧ 100 * c.length ≤ 8 * rateWords r then phasingPulse c r now f else f := by
  simp [judgePulse, h, hr, pulseBand]

theorem detectPulse_idle (h : w.valid = true ∧ 192 ≤ w.level) (hc : f.darkRun = some c) (hs : f.state = .idle) :
    detectPulse w now f =
      if 24 ≤ c.length ∧ c.length ≤ 384 then idlePulse c now (heardFramer w f) else heardFramer w f :=
  (detectPulse_light h hc).trans (judgePulse_idle (by simpa using hs))

theorem detectPulse_phasing (h : w.valid = true ∧ 192 ≤ w.level) (hc : f.darkRun = some c) (hs : f.state = .phasing)
    (hr : f.rate = some r) : detectPulse w now f =
    if rateWords r ≤ 50 * c.length ∧ 100 * c.length ≤ 8 * rateWords r then phasingPulse c r now (heardFramer w f)
    else heardFramer w f :=
  (detectPulse_light h hc).trans (judgePulse_phasing (by simpa using hs) (by simpa using hr))

/-! ### IDLE (R20) -/

theorem idlePulse_first (h : f.firstPulse = none) : idlePulse c now f = { f with firstPulse := some c } := by
  simp only [idlePulse, h]

theorem idlePulse_unfit {a : WordRun} (h : f.firstPulse = some a)
    (hrate : chooseRate (wordsAfter c.first a.first) a.length c.length = none) :
    idlePulse c now f = { f with firstPulse := some c } := by
  simp only [idlePulse, h, hrate]

theorem idlePulse_begins {a : WordRun} (h : f.firstPulse = some a)
    (hrate : chooseRate (wordsAfter c.first a.first) a.length c.length = some r) : idlePulse c now f =
    { f with
      state := .phasing, rate := some r, pulses := [⟨a.first, 0⟩, ⟨c.first, 1⟩],
      period := some (clampPeriod r (16 * wordsAfter c.first a.first)), missCount := 0, phasingSince := some now,
      firstPulse := none } := by
  simp only [idlePulse, h, hrate]

theorem rateFits_iff {interval run1 run2 : Nat} : rateFits interval run1 run2 r = true ↔
    50 * ((interval : Int) - rateWords r).natAbs ≤ interval ∧
    (rateWords r ≤ 50 * run1 ∧ 100 * run1 ≤ 8 * rateWords r) ∧
    (rateWords r ≤ 50 * run2 ∧ 100 * run2 ≤ 8 * rateWords r) := by
  simp [rateFits, pulseBand, and_assoc]

/-- Two rates lie a factor of 2 apart at least. -/
theorem rateWords_apart {q : Rate} (h : q ≠ r) : 2 * rateWords r ≤ rateWords q ∨ 2 * rateWords q ≤ rateWords r := by
  revert h
  cases q <;> cases r <;> decide

theorem rateWords_pos (r : Rate) : 0 < rateWords r := by cases r <;> decide

/-- An interval lies within 2% of the words of one rate at most. -/
theorem rateFits_unique {interval run1 run2 : Nat} {q : Rate} (hr : rateFits interval run1 run2 r = true)
    (hq : rateFits interval run1 run2 q = true) : q = r := by
  have hnearR := (rateFits_iff.mp hr).1
  have hnearQ := (rateFits_iff.mp hq).1
  by_contra hne
  have hpos := rateWords_pos r
  have hpos' := rateWords_pos q
  rcases rateWords_apart hne with hapart | hapart <;> omega

theorem chooseRate_none {interval run1 run2 : Nat} (h : ∀ r, ¬ rateFits interval run1 run2 r = true) :
    chooseRate interval run1 run2 = none :=
  List.find?_eq_none.mpr fun r _ => h r

/-- The order of the test does not matter, since one rate fits at most. -/
theorem chooseRate_some {interval run1 run2 : Nat} (h : rateFits interval run1 run2 r = true) :
    chooseRate interval run1 run2 = some r := by
  have hmem : r ∈ [Rate.r120, .r60, .r240] := by cases r <;> simp
  cases hfind : chooseRate interval run1 run2 with
  | none => exact absurd h (List.find?_eq_none.mp hfind r hmem)
  | some q => rw [rateFits_unique h (List.find?_some hfind)]

/-! ### PHASING (R22, R23) -/

/-- The predicted position, from two pulses by their interval, from more by P (R22). -/
theorem predictedPulse_eq (x y : Pulse) (more : List Pulse) (period m : Nat) :
    predictedPulse (x :: y :: more) period m = some (
      if more = [] then y.pos + BitVec.ofNat 40 ((m + 1) * wordsAfter y.pos x.pos)
      else wordOf (finePosition ((y :: more).getLastD y).pos + BitVec.ofNat 44 ((m + 1) * period))) := by
  cases more with
  | nil => rfl
  | cons z rest => simp [predictedPulse, List.getLast?_cons]

theorem isWithin_iff {p centre : Position} {tolerance : Nat} :
    isWithin p centre tolerance = true ↔ wordsAfter (p + BitVec.ofNat 40 tolerance) centre ≤ 2 * tolerance :=
  decide_eq_true_iff

theorem phasingPulse_far {p : Position} (hp : predictedPulse f.pulses (f.period.getD 0) f.missCount = some p)
    (hfar : ¬ isWithin c.first p (pulseTolerance r) = true) : phasingPulse c r now f = f := by
  unfold phasingPulse
  split
  · next hp' _ =>
    obtain rfl := Option.some.inj (hp.symm.trans hp')
    exact if_neg hfar
  · rfl

/-- The pulses kept for one more: of sixteen the oldest leaves (R22). -/
theorem newestPulses_eq (x : Pulse) (rest : List Pulse) (p : Pulse) :
    (if Config.pulseRoom < (x :: rest ++ [p]).length then (x :: rest ++ [p]).drop 1 else x :: rest ++ [p]) =
      ((if (x :: rest).length < 16 then [x] else []) ++ rest) ++ [p] := by
  have hlen : (x :: rest ++ [p]).length = (x :: rest).length + 1 := by simp
  rw [hlen, Config.pulseRoom]
  split_ifs with hfull hroom hroom
  · omega
  · rfl
  · rfl
  · omega

/-- P from the list's own ends (R23). -/
theorem periodOf_concat (r : Rate) (kept : List Pulse) (hkept : kept ≠ []) (x p : Pulse) :
    periodOf r (kept ++ [p]) = some (clampPeriod r
      ((32 * wordsAfter p.pos (kept.headD x).pos + (p.beat - (kept.headD x).beat)) /
        (2 * (p.beat - (kept.headD x).beat)))) := by
  obtain ⟨a, rest, rfl⟩ := List.exists_cons_of_ne_nil hkept
  simp only [periodOf, List.cons_append, List.head?_cons, List.headD_cons, roundHalfUp, ← Nat.mul_assoc]
  rw [← List.cons_append, List.getLast?_concat]

theorem phasingPulse_near {p : Position} {x y : Pulse} {more : List Pulse} {size misses : Nat}
    (hpulses : f.pulses = x :: y :: more) (hsize : f.pulses.length = size) (hmisses : f.missCount = misses)
    (hp : predictedPulse f.pulses (f.period.getD 0) f.missCount = some p)
    (hnear : isWithin c.first p (pulseTolerance r) = true) :
    let last := (y :: more).getLastD y
    let kept := (if size < 16 then [x] else []) ++ y :: more
    let span := last.beat + misses + 1 - (kept.headD x).beat
    phasingPulse c r now f = { f with
      pulses := kept ++ [⟨c.first, last.beat + misses + 1⟩]
      period := some (clampPeriod r ((32 * wordsAfter c.first (kept.headD x).pos + span) / (2 * span)))
      missCount := 0
      phasingSince := some now } := by
  subst hsize hmisses
  intro last kept span
  have hlast : f.pulses.getLast? = some last := by
    simp [hpulses, last, List.getLast?_cons]
  have hkept : kept ≠ [] := by simp [kept]
  have hnewest := newestPulses_eq x (y :: more) ⟨c.first, last.beat + f.missCount + 1⟩
  rw [← hpulses] at hnewest
  simp only [phasingPulse, hp, hlast, hnear, if_true]
  rw [hnewest, periodOf_concat r kept hkept x]

end

/-- Settles O12: by the framer's state, each clause the lemma of its case. -/
theorem pulsesTaken : Obligations.PulsesTaken := by
  refine ⟨fun p z => ⟨finePosition_toNat p, wordOf_toNat z⟩, fun w now f => ?_⟩
  intro dark light heard band clamped
  have hheard : heard = heardFramer w f :=
    (congrArg (fun run => { f with history := pushHistory w f.history, darkRun := run }) (nextDarkRun_eq w f.darkRun)).symm
  refine ⟨fun h => ?quiet, fun c hl hc hs => ⟨fun hband => ?outside, fun h24 h384 => ⟨fun hfirst => ?first,
    fun a ha => ⟨fun hunfit => ?unfit, fun r hfits => ?begins⟩⟩⟩, fun c r x y more hl hc hs hr hp => ?phasing⟩
  case quiet =>
    rw [hheard]
    by_cases hq : ¬ light ∨ f.darkRun = none
    · exact detectPulse_quiet hq
    · obtain ⟨hl, hd⟩ := not_or.mp hq
      obtain ⟨c, hc⟩ := Option.ne_none_iff_exists'.mp hd
      have himage : f.state = .image := (h.resolve_left hl).resolve_left hd
      rw [detectPulse_light (not_not.mp hl) hc]
      exact judgePulse_image (by simpa using himage)
  case outside => rw [hheard, detectPulse_idle hl hc hs, if_neg hband]
  case first =>
    rw [hheard, detectPulse_idle hl hc hs, if_pos ⟨h24, h384⟩]
    exact idlePulse_first (by simpa using hfirst)
  case unfit =>
    rw [hheard, detectPulse_idle hl hc hs, if_pos ⟨h24, h384⟩]
    exact idlePulse_unfit (by simpa using ha) (chooseRate_none fun r hr => hunfit r (rateFits_iff.mp hr))
  case begins =>
    rw [hheard, detectPulse_idle hl hc hs, if_pos ⟨h24, h384⟩]
    exact idlePulse_begins (by simpa using ha) (chooseRate_some (rateFits_iff.mpr hfits))
  case phasing =>
    intro last predicted near kept oldest span
    have hpredicted : predictedPulse f.pulses (f.period.getD 0) f.missCount = some predicted := by
      rw [hp]; exact predictedPulse_eq x y more _ _
    rw [hheard, detectPulse_phasing hl hc hs hr]
    refine ⟨hpredicted, fun hfar => ?_, fun hband hnear => ?_⟩
    · split
      · next hband =>
        exact phasingPulse_far (by simpa using hpredicted)
          (mt isWithin_iff.mp (hfar.resolve_left (not_not.mpr hband)))
      · rfl
    · rw [if_pos hband]
      exact phasingPulse_near (by simpa using hp) (by simp) (by simp) (by simpa using hpredicted) (isWithin_iff.mpr hnear)

/-! ## Misses and window reports in IDLE and PHASING (R21, R24, R25, R27) -/

theorem isBefore_iff (a b : Position) : isBefore a b = true ↔ 1 ≤ (b - a).toNat ∧ (b - a).toNat < 2 ^ 39 := by
  simp only [isBefore, Bool.and_eq_true, decide_eq_true_eq]
  unfold wordsAfter
  omega

theorem runHolds_iff {run : Option WordRun} {p : Position} {tolerance : Nat} : runHolds run p tolerance = true ↔
    ∃ r, run = some r ∧ r.length < 385 ∧
      wordsAfter (r.first + BitVec.ofNat 40 tolerance) p ≤ 2 * tolerance := by
  cases run with
  | none => simp [runHolds]
  | some r => simp [runHolds, isWithin, and_comm]

/-- A miss is decided past the tolerance, unless a dark run begun within it goes on (R24). -/
theorem missDecided_iff {f : Lfr} {r : Rate} {pos p : Position}
    (hp : predictedPulse f.pulses (f.period.getD 0) f.missCount = some p) : missDecided f r pos = true ↔
    ¬ isBefore pos (p + BitVec.ofNat 40 (rateWords r / 100 + 1)) = true ∧
      ¬ runHolds f.darkRun p (rateWords r / 100) = true := by
  simp [missDecided, hp, pulseTolerance]

section
variable {s : State} {w : HeardWord} {r : Rate}

theorem framerWord_image (h : s.lfr.state = .image) :
    framerWord w s = imageWord w (setLfr (detectPulse w s.now s.lfr) s) := by
  simp only [framerWord, h]

theorem framerWord_other (h : s.lfr.state ≠ .image) :
    framerWord w s = decideMiss w (setLfr (detectPulse w s.now s.lfr) s) := by
  unfold framerWord
  dsimp only
  split
  · next himage => exact absurd himage h
  · rfl

theorem decideMiss_other (h : s.lfr.state ≠ .phasing) : decideMiss w s = s := by
  unfold decideMiss
  split
  · next hphasing _ => exact absurd hphasing h
  · rfl

theorem decideMiss_phasing (h : s.lfr.state = .phasing) (hr : s.lfr.rate = some r) :
    decideMiss w s = if missDecided s.lfr r w.pos then takeMiss r s else s := by
  simp only [decideMiss, h, hr]

theorem takeMiss_first (h : s.lfr.missCount = 0) :
    takeMiss r s = { s with lfr := { s.lfr with missCount := 1 } } := if_pos h

theorem takeMiss_enters (h : s.lfr.missCount ≠ 0) (h8 : 8 ≤ s.lfr.pulses.length) : takeMiss r s = enterImage r s :=
  (if_neg h).trans (if_pos h8)

theorem takeMiss_returns (h : s.lfr.missCount ≠ 0) (h8 : s.lfr.pulses.length < 8) :
    takeMiss r s = setLfr (returnToIdle false s.lfr) s :=
  (if_neg h).trans (if_neg (Nat.not_le.mpr h8))

end

section
variable {s : State} {r : WindowReport}

/-- A report that ends nothing sets start seen when it confirms a start (R21, R27). -/
theorem setSeen_eq (s : State) (seen : Bool) :
    (if seen = true then setLfr { s.lfr with startSeen := true } s else s) =
      { s with lfr := { s.lfr with startSeen := s.lfr.startSeen || seen } } := by
  cases seen with
  | true => simp [setLfr]
  | false => simp

theorem framerReport_idle (h : s.lfr.state = .idle) : framerReport r s =
    { s with lfr := { s.lfr with startSeen := s.lfr.startSeen || r.start.isSome } } := by
  rw [← setSeen_eq]
  unfold framerReport
  split
  · rfl
  · next hs => cases h.symm.trans hs
  · next hs => cases h.symm.trans hs

theorem framerReport_phasing (h : s.lfr.state = .phasing) (hstop : r.stop = none) : framerReport r s =
    { s with lfr := { s.lfr with startSeen := s.lfr.startSeen || r.start.isSome } } := by
  rw [← setSeen_eq]
  unfold framerReport
  split
  · next hs => cases h.symm.trans hs
  · simp only [hstop, Option.isSome_none, Bool.false_eq_true, if_false]
  · next hs => cases h.symm.trans hs

theorem framerReport_stop (h : s.lfr.state = .phasing) (hstop : r.stop ≠ none) :
    framerReport r s = setLfr (returnToIdle r.start.isSome s.lfr) s := by
  have hsome : r.stop.isSome = true := Option.isSome_iff_ne_none.mpr hstop
  simp only [framerReport, h, hsome, if_true]

end

/-- Settles O13: the word by the decision of a miss, the report by the framer's state. -/
theorem phasingDecides : Obligations.PhasingDecides := by
  refine ⟨fun s w => ⟨framerWord_image, fun h hs => (framerWord_other h).trans (decideMiss_other hs),
    fun r p h hs hr hp => ?word⟩, isBefore_iff,
    fun s r => ⟨framerReport_idle, framerReport_phasing, framerReport_stop⟩⟩
  case word =>
    intro late waits
    have hdecided := missDecided_iff (r := r) (pos := w.pos) hp
    rw [runHolds_iff] at hdecided
    have hword := (framerWord_other (w := w) h).trans (decideMiss_phasing hs hr)
    refine ⟨fun hnot => hword.trans (if_neg fun hd => ?waits), fun hlate hwaits => ?decided⟩
    case waits =>
      obtain ⟨hlate, hwaits⟩ := hdecided.mp hd
      exact hnot.elim (absurd hlate) hwaits
    case decided =>
      rw [hword.trans (if_pos (hdecided.mpr ⟨hlate, hwaits⟩))]
      exact ⟨takeMiss_first, takeMiss_enters, takeMiss_returns⟩

/-! ## IMAGE entry and the slot request (R25, R28, R59, R81 to R84) -/

/-- Line 0 begins at the word Z lies in, and ends one period later (R29). -/
theorem enteredFramer_eq {f : Lfr} {p : Nat} (hp : f.period = some p) (last : Pulse) (now : Nat) :
    enteredFramer last now f = { f with
      state := .image, zero := some (zeroOf last f), tLocal := some now, phasingSince := none, missCount := 0,
      fadedCount := 0, highest := none, tail := [], bound := none,
      line := some ⟨0, wordOf (zeroOf last f), wordOf (zeroOf last f + BitVec.ofNat 44 p),
        List.replicate 1200 (0, 0), 0, 0⟩ } := by
  simp only [enteredFramer, lineAt, freshLine, lineStart, hp, Option.getD_some, Nat.zero_mul, Nat.zero_add, Nat.one_mul,
    BitVec.ofNat_eq_ofNat, BitVec.add_zero, Config.linePixels]

theorem bindCandidate_iff (s : State) (r : Rate) (tLocal : Nat) (i : SlotNo) (o : Int) :
    bindCandidate s r tLocal i = some o ↔ ∃ c p, recordAt s i = some c ∧ c.state = .live ∧ c.bound = false ∧
      c.offset = none ∧ c.tag = s.ssv.boot.tag ∧ c.rate = r ∧ c.peerTransition = some p ∧
      offsetWithin8 tLocal p r = some o := by
  unfold bindCandidate
  cases recordAt s i with
  | none => simp
  | some c =>
    simp only [Option.some.injEq]
    constructor
    · intro h
      split at h
      · next hc =>
        split at h
        · cases h
        · next p hp =>
          obtain ⟨hlive, hbound, hoffset, htag, hrate⟩ := hc
          exact ⟨c, p, rfl, hlive, hbound, hoffset, htag, hrate, hp, h⟩
      · cases h
    · rintro ⟨_, p, rfl, hlive, hbound, hoffset, htag, hrate, hp, h⟩
      rw [if_pos ⟨hlive, hbound, hoffset, htag, hrate⟩, hp]
      exact h

section
variable {s : State} {i : SlotNo} {c : Chart}

theorem bindSlot_eq (h : recordAt s i = some c) (o : Int) (tLocal : Nat) : bindSlot i o tLocal s =
    raiseNote 1 (some c.key) (BitVec.ofInt 16 (o + 8))
      (setChart i (some { c with bound := true, offset := some o, localTransition := some tLocal }) s) := by
  simp only [bindSlot, h]

theorem queueOpen_eq (h : recordAt s i = some c) (owner : Block) : queueOpen owner i s =
    setOpenReq i (if (enqueue (openEntry owner i c) s).2 then .queued else .owed) (enqueue (openEntry owner i c) s).1 := by
  simp only [queueOpen, h]

theorem enqueue_setOpenReq (e : Entry) (i : SlotNo) (r : OpenRequest) (s : State) :
    enqueue e (setOpenReq i r s) = (setOpenReq i r (enqueue e s).1, (enqueue e s).2) := by
  unfold enqueue
  rw [setOpenReq_slc]
  cases queueTakes s.slc.queue e.payload <;> rfl

@[simp] theorem setOpenReq_setOpenReq (i : SlotNo) (a b : OpenRequest) (s : State) :
    setOpenReq i a (setOpenReq i b s) = setOpenReq i a s := by
  simp [setOpenReq]

/-- The free sequences depend on the slots and the own number alone (R81). -/
theorem freeSequence_congr {s u : State} (hslots : u.cst.slots = s.cst.slots) (hown : u.ssv.own = s.ssv.own) (n : Nat)
    (q : Byte) : freeSequence u n q = freeSequence s n q := by
  induction n generalizing q with
  | zero => rfl
  | succ n ih =>
    have hheld : keyHeld u (ownKey u q) = keyHeld s (ownKey s q) := by
      simp only [keyHeld, ownKey, hown, slotOf_congr hslots]
    simp only [freeSequence, hheld, ih]

theorem passSequence_setOpenReq (q : Byte) (i : SlotNo) (r : OpenRequest) (s : State) :
    passSequence q (setOpenReq i r s) = setOpenReq i r (passSequence q s) := by
  have hfree : freeSequence (setOpenReq i r s) 9 (q + 1) = freeSequence s 9 (q + 1) := freeSequence_congr rfl rfl 9 (q + 1)
  simp only [passSequence, hfree]
  rfl

/-- The CST's answers: the nearest bindable slot, no slot, or one allocated under an own key (R58, R59, R83). -/
theorem requestSlot_binds {r : Rate} {tLocal : Nat} {o : Int}
    (h : nearestSlot (bindCandidate s r tLocal) = some (i, o)) :
    requestSlot r tLocal s = (bindSlot i o tLocal s, some i) := by
  simp only [requestSlot, h]

theorem requestSlot_fails {r : Rate} {tLocal : Nat} (h : nearestSlot (bindCandidate s r tLocal) = none)
    (hfind : (findSlot s).2 = none) :
    requestSlot r tLocal s = (bump 13 1 (raiseNote 11 none 1 (findSlot s).1), none) := by
  simp only [requestSlot, h, hfind, allocationFailed]

/-- The chart allocated for a local image (R56, R83). -/
def openedChart (r : Rate) (tLocal : Nat) (v : State) : Chart :=
  freshChart (ownKey v (nextSequence v)) v.ssv.boot.tag r (some tLocal) none v.now

theorem requestSlot_allocates {r : Rate} {tLocal : Nat} (h : nearestSlot (bindCandidate s r tLocal) = none)
    (hfind : (findSlot s).2 = some i) :
    let v := (findSlot s).1
    let installed := setView i .empty (setChart i (some (openedChart r tLocal v)) v)
    let offer := enqueue (openEntry .cst i (openedChart r tLocal v)) (passSequence (nextSequence v) installed)
    requestSlot r tLocal s = (setOpenReq i (if offer.2 then .queued else .owed) offer.1, some i) := by
  intro v installed offer
  have hpassed : passSequence (nextSequence v) (installChart i (openedChart r tLocal v) v) =
      setOpenReq i .nothing (passSequence (nextSequence v) installed) :=
    passSequence_setOpenReq (nextSequence v) i .nothing installed
  have hrequest : requestSlot r tLocal s =
      (queueOpen .cst i (passSequence (nextSequence v) (installChart i (openedChart r tLocal v) v)), some i) := by
    simp only [requestSlot, h, hfind]
    rfl
  have hrecord : recordAt (setOpenReq i .nothing (passSequence (nextSequence v) installed)) i =
      some (openedChart r tLocal v) :=
    (recordAt_congr (by simp [installed]) i).trans (recordAt_setChart_same v i (some (openedChart r tLocal v)))
  rw [hrequest, hpassed, queueOpen_eq hrecord, enqueue_setOpenReq]
  simp only [setOpenReq_setOpenReq]
  rfl

end

/-- Settles O14: IMAGE entry by `enterImage_eq`, the three answers by the lemma of each. -/
theorem imageEntered : Obligations.ImageEntered := by
  refine ⟨fun s r last p hlast hp => ?entry, fun s r tLocal => ⟨bindCandidate_iff s r tLocal, fun i o c h hc => ?binds,
    fun h => ⟨requestSlot_fails h, fun i hi => ?allocates⟩⟩⟩
  case entry =>
    intro z entered answer
    have hz : zeroOf last s.lfr = z := by simp only [zeroOf, hp, Option.getD_some, z]
    have hframer : enteredFramer last s.now s.lfr = entered.lfr := by rw [enteredFramer_eq hp, hz]
    have hanswer : entryAnswer r last s = answer := by
      rw [entryAnswer, hframer]
      rfl
    refine ⟨by rw [← hanswer, entryAnswer_lfr, hframer], ?_⟩
    rw [enterImage_eq hlast, hanswer, hframer, hz]
    rfl
  case binds =>
    rw [requestSlot_binds h, bindSlot_eq hc]
    rfl
  case allocates =>
    intro v key c installed sequence offer
    have hoffer : enqueue (openEntry .cst i (openedChart r tLocal v))
        (passSequence (nextSequence v) (setView i .empty (setChart i (some (openedChart r tLocal v)) v))) = offer :=
      rfl
    have hopenReq : offer.1.xen.openReq = v.xen.openReq := by
      simp [offer, installed]
    rw [requestSlot_allocates h hi, hoffer, ← hopenReq]
    rfl

/-! ## Words and lines in IMAGE (R29 to R33) -/

theorem applyWord_eq (w : HeardWord) (l : LineInProgress) : applyWord w l =
    if w.valid = true ∧ w.overload = false then
      { l with
        pixels := l.pixels.modify (wordsAfter w.pos l.start * 1200 / wordsAfter l.next l.start)
          (fun p => (p.1 + w.level, p.2 + 1))
        usable := l.usable + 1
        strength := l.strength + w.strength }
    else l := by
  simp only [applyWord, HeardWord.usable, Bool.and_eq_true, Bool.not_eq_true', pixelOf, Config.linePixels]

section
variable {s : State} {w : HeardWord} {l : LineInProgress}

theorem imageWord_eq (hs : s.lfr.state = .image) (hl : s.lfr.line = some l) (w : HeardWord) :
    let cut := if isBefore w.pos l.next = true then s else closeLine l s
    (cut.lfr.line = none → imageWord w s = cut) ∧
    ∀ x, cut.lfr.line = some x →
      imageWord w s = commitDue w.pos cut.lfr.tail (setLfr { cut.lfr with line := some (applyWord w x) } cut) := by
  intro cut
  have hword : imageWord w s = match cut.lfr.line with
      | none => cut
      | some x => commitDue w.pos cut.lfr.tail (setLfr { cut.lfr with line := some (applyWord w x) } cut) := by
    simp only [imageWord, hs, hl]
    rfl
  exact ⟨fun h => by rw [hword, h], fun x h => by rw [hword, h]⟩

/-- Lines commit from the head as long as they end 9,600 words behind (R32). -/
theorem commitDue_eq (pos : Position) (tail : List TailLine) (s : State) :
    let due (l : TailLine) : Bool := decide (9600 ≤ (pos - l.last).toNat)
    commitDue pos tail s =
      setTail (tail.dropWhile due) ((tail.takeWhile due).foldl (fun u l => commitLine l u) s) := by
  intro due
  induction tail generalizing s with
  | nil => rfl
  | cons l rest ih =>
    unfold commitDue
    by_cases h : due l = true
    · rw [List.dropWhile_cons_of_pos h, List.takeWhile_cons_of_pos h, List.foldl_cons, ← ih]
      exact if_pos (of_decide_eq_true h)
    · rw [List.dropWhile_cons_of_neg h, List.takeWhile_cons_of_neg h]
      exact if_neg (mt decide_eq_true h)

theorem makeRoom_room (h : s.lfr.tail.length < 9) : makeRoom s = s := by
  unfold makeRoom
  split
  · rfl
  · exact if_neg (Nat.not_le.mpr h)

theorem makeRoom_full {head : TailLine} {rest : List TailLine} (htail : s.lfr.tail = head :: rest)
    (h : 9 ≤ s.lfr.tail.length) : makeRoom s = setTail rest (commitLine head s) := by
  unfold makeRoom
  split
  · next hnil => cases hnil.symm.trans htail
  · next hcons =>
    obtain ⟨rfl, rfl⟩ := List.cons.inj (hcons.symm.trans htail)
    exact if_pos h

/-- A closing line behind room made for it: the next line begins one line on, or the image ends (R29, R31). -/
theorem closeLine_joins {u : State} {z : FinePosition} {p : Nat} (hu : makeRoom (bump 0 1 s) = u)
    (hz : u.lfr.zero = some z) (hp : u.lfr.period = some p) :
    (l.index = 2055 → closeLine l s = endByFadeOrLimit .limit
      { u with lfr := { u.lfr with tail := u.lfr.tail ++ [closedLine s.ssv.own l], line := none } }) ∧
    (l.index ≠ 2055 → closeLine l s = { u with lfr := { u.lfr with
      tail := u.lfr.tail ++ [closedLine s.ssv.own l]
      line := some ⟨l.index + 1, wordOf (z + BitVec.ofNat 44 ((l.index + 1) * p)),
        wordOf (z + BitVec.ofNat 44 ((l.index + 2) * p)), List.replicate 1200 (0, 0), 0, 0⟩ } }) := by
  have hjoin : joinTail l s = setTail (u.lfr.tail ++ [closedLine s.ssv.own l]) u := by rw [← hu]; rfl
  have hline : lineAt (setTail (u.lfr.tail ++ [closedLine s.ssv.own l]) u).lfr (l.index + 1) =
      ⟨l.index + 1, wordOf (z + BitVec.ofNat 44 ((l.index + 1) * p)), wordOf (z + BitVec.ofNat 44 ((l.index + 2) * p)),
        List.replicate 1200 (0, 0), 0, 0⟩ := by
    simp only [lineAt, setTail, setLfr_lfr, hz, hp]
    rfl
  rw [closeLine_eq, hjoin, hline]
  exact ⟨fun h => if_pos h, fun h => if_neg h⟩

/-! ### A commit (R33, R59) -/

theorem commitLine_unbound {l : TailLine} (h : s.lfr.bound = none) :
    commitLine l s = bump 13 1 (setLfr { s.lfr with highest := some l.index } s) := by
  simp only [commitLine, setLfr_lfr, h]

theorem commitLine_bound {l : TailLine} {i : SlotNo} (h : s.lfr.bound = some i) :
    commitLine l s = commitCopy i l.index l.copy (setLfr { s.lfr with highest := some l.index } s) := by
  simp only [commitLine, setLfr_lfr, h]

theorem commitCopy_outside {i : SlotNo} {c : Chart} {index : Nat} {copy : Copy} (h : recordAt s i = some c)
    (hrange : (index : Int) + c.offset.getD 0 < 0 ∨ 2048 ≤ (index : Int) + c.offset.getD 0) :
    commitCopy i index copy s = bump 13 1 s := by
  simp only [commitCopy, h]
  exact if_neg fun ⟨hlow, hhigh⟩ => hrange.elim (not_lt.mpr hlow) (not_le.mpr hhigh)

theorem commitCopy_inside {i : SlotNo} {c : Chart} {index j : Nat} {copy : Copy} (h : recordAt s i = some c)
    (hshared : (index : Int) + c.offset.getD 0 = j) (hj : j < 2048) :
    commitCopy i index copy s = mergeOffer i c.key j copy (setChart i (some { c with newest := some j }) s) := by
  simp only [commitCopy, h, hshared]
  exact if_pos ⟨Int.natCast_nonneg j, Int.ofNat_lt.mpr hj⟩

end

/-- Settles O15: a word by `imageWord_eq`, a closing line by `closeLine_joins`, the tail's head by `commitDue_eq`. -/
theorem linesCutAndCommitted : Obligations.LinesCutAndCommitted := by
  refine ⟨fun s w l hs hl => ?word, fun s l z p hz hp => ?closes, fun s pos tail => commitDue_eq pos tail s,
    fun s l => ⟨commitLine_unbound, fun i c hb hc => ?commit⟩⟩
  case word =>
    intro put closed
    have hput (x : LineInProgress) : applyWord w x = put x := applyWord_eq w x
    obtain ⟨hended, hgoes⟩ := imageWord_eq hs hl w
    refine ⟨fun hbefore => ?_, fun hpast => ?_⟩
    · rw [if_pos hbefore] at hgoes
      rw [← hput]
      exact hgoes l hl
    · have hpast' : ¬ isBefore w.pos l.next = true := Bool.eq_false_iff.mp hpast
      rw [if_neg hpast'] at hended hgoes
      refine ⟨hended, fun x hx => ?_⟩
      rw [← hput]
      exact hgoes x hx
  case closes =>
    intro t start closes
    refine ⟨fun hroom => closeLine_joins (makeRoom_room hroom) hz hp, fun head rest htail hfull => ?_⟩
    have hlfr := commitLine_lfr head (bump 0 1 s)
    exact closeLine_joins (makeRoom_full htail hfull) (by simpa [setTail, hlfr] using hz) (by simpa [setTail, hlfr] using hp)
  case commit =>
    rw [commitLine_bound hb]
    exact ⟨commitCopy_outside hc, fun j hshared hj => commitCopy_inside hc hshared hj⟩

/-! ## The end of an image (R34 to R39, R68, R93) -/

section
variable {s : State} {r : WindowReport}

theorem framerReport_image (h : s.lfr.state = .image) : framerReport r s = imageReport r s := by
  simp only [framerReport, h]

theorem boundKey_none (h : s.lfr.bound = none) : boundKey s = none := by simp only [boundKey, h]

theorem boundKey_some {i : SlotNo} {c : Chart} (h : s.lfr.bound = some i) (hc : recordAt s i = some c) :
    boundKey s = some c.key := by
  simp only [boundKey, h, hc, Option.map_some]

/-! ### Tones and fades (R34 to R38) -/

theorem imageReport_stop {p : Position} (hstop : r.stop = some p) (hstart : r.start = none) :
    imageReport r s = endByTone .stop p false s := by
  simp only [imageReport, hstop, hstart]

theorem imageReport_start {p : Position} (hstop : r.stop = none) (hstart : r.start = some p) :
    imageReport r s = endByTone .start p true s := by
  simp only [imageReport, hstop, hstart]

theorem imageReport_both {p q : Position} (hstop : r.stop = some p) (hstart : r.start = some q) :
    imageReport r s = if isBefore q p then endByTone .start q true s else endByTone .stop p true s := by
  simp only [imageReport, hstop, hstart]

theorem imageReport_plain (hstop : r.stop = none) (hstart : r.start = none) :
    imageReport r s = imageFade r.faded s := by
  simp only [imageReport, hstop, hstart]

theorem imageFade_counts (h : s.lfr.fadedCount + 1 < s.ssv.boot.fadeSeconds * 4) :
    imageFade true s = setLfr { s.lfr with fadedCount := s.lfr.fadedCount + 1 } s :=
  if_pos h

/-- A run of faded windows as long as fade seconds asks acts by the fade mode (R34, R38). -/
theorem imageFade_ends (h : s.ssv.boot.fadeSeconds * 4 ≤ s.lfr.fadedCount + 1) : imageFade true s =
    match s.ssv.boot.fadeMode with
    | .close => endByFadeOrLimit .fade s
    | .report =>
      raiseNote 9 (boundKey s) (BitVec.ofNat 16 ((s.lfr.line.map (·.index)).getD 0))
        (setLfr { s.lfr with fadedCount := 0 } s)
    | .none => setLfr { s.lfr with fadedCount := 0 } s :=
  if_neg (Nat.not_lt.mpr h)

/-- A fade or the limit commits the whole tail (R38). -/
theorem endByFadeOrLimit_eq (reason : CloseReason) (s : State) : endByFadeOrLimit reason s =
    finishImage reason false (setTail [] (s.lfr.tail.foldl (fun u l => commitLine l u) s)) := by
  rw [endByFadeOrLimit, commitTail, List.filter_true]

/-! ### The end itself (R39, R68, R93) -/

theorem finalLength_eq (c : Chart) (highest : Option Nat) : finalLength c highest =
    match highest with
    | none => 0
    | some h => (max 0 (min 2048 ((h : Int) + c.offset.getD 0 + 1))).toNat := by
  cases highest <;> rfl

theorem announce_unbound (n : Nat) (c : Chart) : { c.announce n with bound := false } =
    { c with bound := false, announced := if n = 0 then c.announced else some (max (c.announced.getD 0) n) } := by
  unfold Chart.announce
  split <;> rfl

theorem updateChart_eq {i : SlotNo} {c : Chart} (h : recordAt s i = some c) (f : Chart → Chart) :
    updateChart i f s = setChart i (some (f c)) s := by
  simp only [updateChart, h]

/-- The end of a bound slot's local image: its CLOSE, its length, its close (R68, R93). -/
theorem endLocalImage_eq {i : SlotNo} {c : Chart} (h : recordAt s i = some c) (reason : CloseReason)
    (highest : Option Nat) :
    let n := finalLength c highest
    let queued := (enqueue (newEntry (.closeF c.key (BitVec.ofNat 16 n) (BitVec.ofNat 8 (reasonCode reason))) .cst) s).1
    endLocalImage i reason highest s = closeSlot i reason (setChart i (some { c with
      bound := false, announced := if n = 0 then c.announced else some (max (c.announced.getD 0) n) }) queued) := by
  intro n queued
  have hqueued : recordAt queued i = some c := (recordAt_congr (by simp [queued]) i).trans h
  rw [← announce_unbound n c, ← updateChart_eq hqueued (fun c => { c.announce n with bound := false })]
  simp only [endLocalImage, h]
  rfl

/-- Behind the end the framer is in IDLE, its history and dark run as they were (R39). -/
theorem finishImage_unbound (h : s.lfr.bound = none) (reason : CloseReason) (seen : Bool) :
    finishImage reason seen s = setLfr (returnToIdle seen s.lfr)
      (raiseNote 3 none (BitVec.ofNat 16 (reasonCode reason + if s.lfr.startSeen then 256 else 0)) s) := by
  simp only [finishImage, h, boundKey_none h, raiseNote_keeps]

theorem finishImage_bound {i : SlotNo} {c : Chart} (h : s.lfr.bound = some i) (hc : recordAt s i = some c)
    (reason : CloseReason) (seen : Bool) :
    finishImage reason seen s = setLfr (returnToIdle seen s.lfr)
      (raiseNote 3 (some c.key) (BitVec.ofNat 16 (reasonCode reason + if s.lfr.startSeen then 256 else 0))
        (endLocalImage i reason s.lfr.highest s)) := by
  simp only [finishImage, h, boundKey_some h hc, raiseNote_keeps, endLocalImage_keeps]

end

/-- Settles O16: a report by what it confirms, the ends by their tails, the last act by the bound slot. -/
theorem imageEnds : Obligations.ImageEnds := by
  refine ⟨fun s r hs => ?report, fun s reason boundary seen => ⟨rfl, endByFadeOrLimit_eq reason s⟩,
    fun s reason seen => ⟨fun h => finishImage_unbound h reason seen, fun i c h hc => ?bound⟩⟩
  case report =>
    intro count n
    rw [framerReport_image hs]
    refine ⟨fun p => imageReport_stop, fun p => imageReport_start, fun p q hp hq hpq => ?_, fun p q hp hq hpq => ?_,
      fun hp hq hf => ?_, fun hp hq hf => ⟨fun hn => ?_, fun hn hm => ?_, fun hn hm => ?_, fun l hn hm hl => ?_⟩⟩
    · rw [imageReport_both hp hq, if_pos hpq]
    · rw [imageReport_both hp hq, hpq]; rfl
    · rw [imageReport_plain hp hq, hf]; rfl
    · rw [imageReport_plain hp hq, hf, imageFade_counts hn]; rfl
    · rw [imageReport_plain hp hq, hf, imageFade_ends hn, hm]; rfl
    · rw [imageReport_plain hp hq, hf, imageFade_ends hn, hm]
    · rw [imageReport_plain hp hq, hf, imageFade_ends hn, hm, hl]
      exact ⟨fun hb => by rw [boundKey_none hb]; rfl, fun i c hb hc => by rw [boundKey_some hb hc]; rfl⟩
  case bound =>
    intro length queued told
    have hlength : finalLength c s.lfr.highest = length := finalLength_eq c s.lfr.highest
    rw [finishImage_bound h hc, endLocalImage_eq hc, hlength]
    rfl

/-! ## Line lengths, impulses and the copy of a line (R23, R29 to R31, R43, R47, R51) -/

/-- One period on, the word begun lies a sixteenth of it on, rounded down or up, though positions wrap (R29). -/
theorem wordsAfter_period (a : FinePosition) {p : Nat} (hp : p < 2 ^ 43) :
    p / 16 ≤ wordsAfter (wordOf (a + BitVec.ofNat 44 p)) (wordOf a) ∧
      wordsAfter (wordOf (a + BitVec.ofNat 44 p)) (wordOf a) ≤ p / 16 + 1 := by
  have ha := a.isLt
  simp only [wordsAfter, BitVec.toNat_sub, wordOf_toNat, BitVec.toNat_add, BitVec.toNat_ofNat]
  omega

/-- The fine position where line `n + 1` starts is one period after that of line `n`. -/
theorem lineStart_succ (z : FinePosition) (p n : Nat) :
    lineStart z p (n + 1) = wordOf (z + BitVec.ofNat 44 (n * p) + BitVec.ofNat 44 p) := by
  rw [lineStart, Nat.succ_mul, BitVec.ofNat_add, BitVec.add_assoc]

/-- P lies within 1% of the words of its rate (R23). -/
theorem clampPeriod_range (r : Rate) (q : Nat) :
    rateWords r - rateWords r / 100 ≤ clampPeriod r q / 16 ∧
      clampPeriod r q / 16 ≤ rateWords r + rateWords r / 100 ∧ clampPeriod r q < 2 ^ 43 := by
  cases r <;> simp only [clampPeriod, clampTo, rateWords] <;> omega

theorem lineLength_range (r : Rate) (z : FinePosition) (q n : Nat) :
    rateWords r - rateWords r / 100 - 1 ≤
        wordsAfter (lineStart z (clampPeriod r q) (n + 1)) (lineStart z (clampPeriod r q) n) ∧
      wordsAfter (lineStart z (clampPeriod r q) (n + 1)) (lineStart z (clampPeriod r q) n) ≤
        rateWords r + rateWords r / 100 + 1 := by
  obtain ⟨hlow, hhigh, hp⟩ := clampPeriod_range r q
  obtain ⟨hfloor, hceil⟩ := wordsAfter_period (z + BitVec.ofNat 44 (n * clampPeriod r q)) hp
  rw [lineStart_succ]
  exact ⟨(Nat.sub_le ..).trans (hlow.trans hfloor), hceil.trans (Nat.add_le_add_right hhigh 1)⟩

/-- The test of the pixel behind index `k` (R43). -/
def impulseBehind (levels : List (Option Nat)) (k : Nat) : Bool :=
  isImpulse levels[k]?.join levels[k + 1]?.join levels[k + 2]?.join

theorem isImpulse_eq : ∀ x y z : Option Nat, isImpulse x y z =
    match x, y, z with
    | some a, some p, some b => decide ((a + 96 < p ∧ b + 96 < p) ∨ (p + 96 < a ∧ p + 96 < b))
    | _, _, _ => false
  | some a, some p, some b => by simp [isImpulse]
  | none, _, _ | some _, none, _ | some _, some _, none => rfl

/-- The impulse count is the number of inner pixels that stand out (R43). -/
theorem impulseCount_eq (levels : List (Option Nat)) :
    impulseCount levels = (List.range (levels.length - 2)).countP (impulseBehind levels) := by
  induction levels with
  | nil => rfl
  | cons a rest ih =>
    rcases rest with _ | ⟨p, _ | ⟨b, rest⟩⟩
    · rfl
    · rfl
    · have hlen : (a :: p :: b :: rest).length - 2 = ((p :: b :: rest).length - 2) + 1 := rfl
      have hshift : (impulseBehind (a :: p :: b :: rest)) ∘ Nat.succ = impulseBehind (p :: b :: rest) := rfl
      rw [hlen, List.range_succ_eq_map, List.countP_cons, List.countP_map, hshift, ← ih, Nat.add_comm]
      rfl

theorem formCopy_pixel {own : Receiver} {l : LineInProgress} {k : Nat} {p : Nat × Nat} (h : l.pixels[k]? = some p) :
    (formCopy own l).pixels[k]? = some (if p.2 = 0 then (15 : BitVec 4) else BitVec.ofNat 4 (p.1 / p.2 / 16)) := by
  simp only [formCopy, pixelLevels, List.getElem?_map, h, Option.map_some]
  split <;> rfl

theorem formCopy_unknown (own : Receiver) (l : LineInProgress) :
    (formCopy own l).u = l.pixels.countP (fun p => p.2 == 0) := by
  simp only [formCopy, unknownCount, pixelLevels, List.countP_map]
  refine List.countP_congr fun p _ => ?_
  by_cases h : p.2 = 0 <;> simp [h]

/-- Settles O17. -/
theorem linesScored : Obligations.LinesScored := by
  refine ⟨lineLength_range, fun levels _ => ⟨?count, ?bound⟩,
    fun own l => ⟨formCopy_pixels_length own l, fun k p => formCopy_pixel, formCopy_unknown own l, rfl, rfl, rfl⟩⟩
  case count => exact (impulseCount_eq levels).trans (congrArg (List.countP · _) (funext fun _ => isImpulse_eq ..))
  case bound =>
    rw [impulseCount_eq]
    exact List.countP_le_length.trans_eq List.length_range

end Sys2Proof.Machine

/-! Proofs for the quality of a line, the merge rule, and the lines other stations send. -/

namespace Sys2Proof.Machine

/-! ## The quality terms and the code (R44 to R48) -/

theorem completenessTerm_ends {v n : Nat} (hn : 0 < n) (hv : v ≤ n) :
    completenessTerm v n ≤ 100 ∧ (completenessTerm v n = 100 ↔ v = n) ∧ (completenessTerm v n = 0 ↔ 100 * v < n) := by
  have hle : completenessTerm v n ≤ 100 := Nat.div_le_of_le_mul (by rw [Nat.mul_comm n]; omega)
  have hfull : 100 ≤ completenessTerm v n ↔ 100 * n ≤ 100 * v := Nat.le_div_iff_mul_le hn
  have hzero : completenessTerm v n = 0 ↔ 100 * v < n := Nat.div_eq_zero_iff_lt hn
  exact ⟨hle, by omega, hzero⟩

theorem strengthTerm_ends (m : Nat) : (strengthTerm m = 0 ↔ m = 0) ∧ (40 ≤ m → strengthTerm m = 100) := by
  unfold strengthTerm
  omega

theorem impulseTerm_ends (i : Nat) : (impulseTerm i = 0 ↔ 64 ≤ i) ∧ (impulseTerm i = 100 ↔ i = 0) := by
  unfold impulseTerm
  omega

theorem qualityOf_le_first {a b c : Nat} (hb : b ≤ 100) (hc : c ≤ 100) : qualityOf a b c ≤ a := by
  have hproduct : a * b * c ≤ 10000 * a :=
    calc a * b * c ≤ a * 100 * 100 := Nat.mul_le_mul (Nat.mul_le_mul_left a hb) hc
      _ = 10000 * a := by omega
  exact Nat.div_le_of_le_mul hproduct

/-- Q stays at or under each of its terms, so it is full only when all three are (R47). -/
theorem qualityOf_full_iff {a b c : Nat} (ha : a ≤ 100) (hb : b ≤ 100) (hc : c ≤ 100) :
    qualityOf a b c = 100 ↔ a = 100 ∧ b = 100 ∧ c = 100 := by
  have hswap : qualityOf b a c = qualityOf a b c := by rw [qualityOf, qualityOf, Nat.mul_comm b]
  have hturn : qualityOf c b a = qualityOf a b c := by
    rw [qualityOf, qualityOf, Nat.mul_assoc, Nat.mul_comm c, Nat.mul_comm b]
  have hfirst : qualityOf a b c ≤ a := qualityOf_le_first hb hc
  have hsecond : qualityOf a b c ≤ b := hswap ▸ qualityOf_le_first ha hc
  have hthird : qualityOf a b c ≤ c := hturn ▸ qualityOf_le_first hb ha
  exact ⟨fun h => by omega, by rintro ⟨rfl, rfl, rfl⟩; rfl⟩

theorem qualityCode_range {q : Nat} (h : q ≤ 100) : 1 ≤ qualityCode q ∧ qualityCode q ≤ 15 :=
  ⟨Nat.le_add_right 1 _, qualityCode_le h⟩

theorem qualityCode_mono {p q : Nat} (h : p ≤ q) : qualityCode p ≤ qualityCode q :=
  Nat.add_le_add_left (Nat.div_le_div_right (Nat.mul_le_mul_left 14 h)) 1

/-- Settles O18: each term's ends are a division's, Q lies under each of its terms, and the code is a rising division. -/
theorem qualityAndCode : Obligations.QualityAndCode :=
  ⟨⟨fun _ _ hn hv => ⟨rfl, completenessTerm_ends hn hv⟩, fun m => ⟨rfl, strengthTerm_ends m⟩,
      fun i => ⟨rfl, impulseTerm_ends i⟩,
      fun _ _ _ ha hb hc => ⟨rfl, (qualityOf_le_first hb hc).trans ha, qualityOf_full_iff ha hb hc,
        Nat.div_eq_zero_iff_lt (by decide)⟩⟩,
    fun _ h => ⟨rfl, qualityCode_range h⟩, fun _ _ => qualityCode_mono, by decide⟩

/-! ## The merge rule (R52, R54, R63, R66, R67, R69 to R73) -/

theorem Chart.answersTo_iff {c : Chart} {k : Key} : c.answersTo k = true ↔ c.key = k ∨ c.otherKey = some k := by
  simp [Chart.answersTo]

/-! ### Length and completeness (R67, R69) -/

theorem Chart.length_eq (c : Chart) : c.length =
    match c.announced, c.highestHeld with
    | some n, _ => n
    | none, some h => h + 1
    | none, none => 0 := by
  unfold Chart.length
  cases c.announced <;> cases c.highestHeld <;> rfl

theorem Chart.complete_iff (floor : Nat) {c : Chart} {n : Nat} (hn : c.length = n) : c.complete floor = true ↔
    1 ≤ n ∧ ∀ x, x < n → ∃ e, mapGet c.lineMap x = some e ∧ floor ≤ e.q := by
  subst hn
  have hline (x : Nat) : (match mapGet c.lineMap x with | some e => !isPoor floor e.q | none => false) = true ↔
      ∃ e, mapGet c.lineMap x = some e ∧ floor ≤ e.q := by
    cases mapGet c.lineMap x <;> simp [isPoor]
  simp only [Chart.complete, Bool.and_eq_true, decide_eq_true_eq, List.all_eq_true, List.mem_range]
  exact and_congr_right' (forall₂_congr fun x _ => hline x)

section
variable {s : State} {i : SlotNo} {c : Chart}

/-- A slot in SWEEP found complete enters HELD (R63, R64, R69). -/
theorem testComplete_closes (h : recordAt s i = some c) (hs : c.state = .sweep)
    (hc : c.complete s.ssv.boot.poorFloor = true) : testComplete i s =
      raiseNote 5 (some c.key) 1
        (setChart i (some { c with state := .held, wantDue := none, sweepDeadline := none, used := true }) s) := by
  simp only [testComplete, h, hs, hc, and_self, if_true, enterHeld]
  rfl

theorem testComplete_stays (h : recordAt s i = some c)
    (hc : ¬ (c.state = .sweep ∧ c.complete s.ssv.boot.poorFloor = true)) : testComplete i s = s := by
  simp only [testComplete, h, if_neg hc]

/-! ### The offer, case by case (R70 to R73) -/

/-- The copy offered for a line beats the copy held, or there is none (R50, R71). -/
def Copy.beats (copy : Copy) (margin : Nat) (held : Option LineEntry) : Prop :=
  ∀ e, held = some e → e.q + margin ≤ copy.q

/-- A copy that does not beat the one held is surplus (R71). -/
def Copy.surplus (copy : Copy) (margin : Nat) (held : Option LineEntry) : Bool :=
  match held with
  | some e => !replaces margin e.q copy.q
  | none => false

theorem Copy.surplus_iff (copy : Copy) (margin : Nat) (held : Option LineEntry) :
    copy.surplus margin held = true ↔ ¬ copy.beats margin held := by
  cases held <;> simp [Copy.surplus, Copy.beats, replaces]

variable {k : Key} {j : Nat} {copy : Copy}

theorem mergeOffer_unanswered (h : recordAt s i = some c) (hk : c.answersTo k = false) :
    mergeOffer i k j copy s = s := by
  simp only [mergeOffer, h, hk, Bool.false_eq_true, if_false]

/-- An offer under the slot's key is a reference of the slot; a surplus copy is discarded, another takes the page at the head of the free list, or is dropped for want of one (R54, R70 to R73). -/
theorem mergeOffer_answered (h : recordAt s i = some c) (hk : c.answersTo k = true) : mergeOffer i k j copy s =
    let referenced := { c with lastReference := s.now }
    let touched := setChart i (some referenced) s
    if copy.surplus s.ssv.boot.margin (mapGet c.lineMap j) = true then
      if copy.origin = .peerCopy then bump 13 1 touched else touched
    else
      match s.cst.free with
      | [] => poolEmptyDrop referenced j touched
      | page :: rest => storeCopy i referenced j copy page rest touched := by
  simp only [mergeOffer, h, hk, if_true]
  cases copy.origin <;> rfl

theorem mergeOffer_surplus (h : recordAt s i = some c) (hk : c.answersTo k = true)
    (hb : ¬ copy.beats s.ssv.boot.margin (mapGet c.lineMap j)) : mergeOffer i k j copy s =
      let touched := setChart i (some { c with lastReference := s.now }) s
      if copy.origin = .peerCopy then bump 13 1 touched else touched :=
  (mergeOffer_answered h hk).trans (if_pos ((copy.surplus_iff ..).mpr hb))

theorem mergeOffer_beats (h : recordAt s i = some c) (hk : c.answersTo k = true)
    (hb : copy.beats s.ssv.boot.margin (mapGet c.lineMap j)) : mergeOffer i k j copy s =
      let referenced := { c with lastReference := s.now }
      let touched := setChart i (some referenced) s
      match s.cst.free with
      | [] => poolEmptyDrop referenced j touched
      | page :: rest => storeCopy i referenced j copy page rest touched :=
  (mergeOffer_answered h hk).trans (if_neg (mt (copy.surplus_iff ..).mp (not_not.mpr hb)))

/-! ### A store (R53, R65, R66, R73) -/

/-- The record a slot has once a copy stands on a page: the copy's entry and everything that follows from it (R65, R66, R73). -/
def Chart.holding (c : Chart) (floor index page : Nat) (copy : Copy) : Chart :=
  let old := mapGet c.lineMap index
  let poor (q : Nat) : Nat := if q < floor then 1 else 0
  { c with
    lineMap := mapSet index ⟨page, copy.q, 1 + 14 * copy.q / 100, copy.source, copy.origin, copy.u⟩ c.lineMap
    dirty := if ownCode c index = 1 + 14 * copy.q / 100 then c.dirty else c.dirty ||| BitVec.twoPow 64 (index / 32)
    heldCount := if old = none then c.heldCount + 1 else c.heldCount
    poorCount := c.poorCount + poor copy.q - (match old with | some e => poor e.q | none => 0)
    highestHeld := some (max (c.highestHeld.getD 0) index) }

section
variable {margin floor page : Nat}

theorem Chart.store_dirty : (c.store floor j page copy).dirty = (c.holding floor j page copy).dirty := by
  simp only [Chart.store, Chart.holding, eq_comm (a := qualityCode copy.q)]
  rfl

theorem Chart.store_heldCount : (c.store floor j page copy).heldCount = (c.holding floor j page copy).heldCount := by
  simp only [Chart.store, Chart.holding, Option.isNone_iff_eq_none]

/-- A replaced copy is at most as good as the one that beats it, so a store raises the poor count only on an absent line and lowers it only when the line ceases to be poor (R49, R50, R66). -/
theorem Chart.store_poorCount (hb : copy.beats margin (mapGet c.lineMap j)) :
    (c.store floor j page copy).poorCount = (c.holding floor j page copy).poorCount := by
  unfold Chart.store Chart.holding isPoor
  cases hold : mapGet c.lineMap j with
  | none => by_cases hnew : copy.q < floor <;> simp [hnew]
  | some e =>
    have hle : e.q ≤ copy.q := (Nat.le_add_right ..).trans (hb e hold)
    by_cases hnew : copy.q < floor
    · simp [hnew, hle.trans_lt hnew]
    · by_cases hwas : e.q < floor <;> simp [hnew, hwas]

theorem Chart.store_eq_holding (hb : copy.beats margin (mapGet c.lineMap j)) :
    c.store floor j page copy = c.holding floor j page copy := by
  have hfields : c.holding floor j page copy = { c.store floor j page copy with
      dirty := (c.holding floor j page copy).dirty
      heldCount := (c.holding floor j page copy).heldCount
      poorCount := (c.holding floor j page copy).poorCount } := rfl
  rw [hfields, ← Chart.store_poorCount hb, ← Chart.store_dirty, ← Chart.store_heldCount]

end

/-- The store of a copy on the free list's first page, before the slot is tested for completeness (R53, R54, R73, R176). -/
def storedCopy (i : SlotNo) (d : Chart) (old : Option LineEntry) (copy : Copy) (page : Nat) (rest : List Nat)
    (s : State) : State :=
  let back := (old.map (·.page)).toList
  let counted := bump (if copy.origin = .localCopy then 1 else 2) 1 { s with cst := { s.cst with
    slots := s.cst.slots.set i (some d)
    pages := Memory.write s.cst.pages page copy.pixels
    free := rest ++ back
    poolReported := if back ≠ [] ∧ 64 ≤ (rest ++ back).length then false else s.cst.poolReported } }
  if old = none then counted else bump 3 1 counted

theorem storeCopy_eq (page : Nat) (rest : List Nat) : storeCopy i c j copy page rest s =
    testComplete i (storedCopy i (c.store s.ssv.boot.poorFloor j page copy) (mapGet c.lineMap j) copy page rest s) := by
  unfold storeCopy storedCopy
  cases mapGet c.lineMap j <;> cases copy.origin <;> rfl

theorem storedCopy_setChart (d : Chart) (old : Option LineEntry) (page : Nat) (rest : List Nat) :
    storedCopy i d old copy page rest (setChart i (some c) s) = storedCopy i d old copy page rest s := by
  simp only [storedCopy, setChart_slots, Vector.set_set]
  rfl

theorem recordAt_storedCopy (d : Chart) (old : Option LineEntry) (page : Nat) (rest : List Nat) :
    recordAt (storedCopy i d old copy page rest s) i = some d := by
  unfold storedCopy
  dsimp only
  split <;> simp [recordAt]

@[simp] theorem storedCopy_boot (d : Chart) (old : Option LineEntry) (page : Nat) (rest : List Nat) :
    (storedCopy i d old copy page rest s).ssv.boot = s.ssv.boot := by
  unfold storedCopy
  dsimp only
  split <;> rfl

theorem mergeOffer_stores (h : recordAt s i = some c) (hk : c.answersTo k = true)
    (hb : copy.beats s.ssv.boot.margin (mapGet c.lineMap j)) {page : Nat} {rest : List Nat}
    (hfree : s.cst.free = page :: rest) : mergeOffer i k j copy s =
      testComplete i (storedCopy i ({ c with lastReference := s.now }.holding s.ssv.boot.poorFloor j page copy)
        (mapGet c.lineMap j) copy page rest s) := by
  have hstore := Chart.store_eq_holding (c := { c with lastReference := s.now }) (floor := s.ssv.boot.poorFloor)
    (page := page) hb
  rw [mergeOffer_beats h hk hb, hfree, ← hstore]
  exact (storeCopy_eq page rest).trans (congrArg (testComplete i) (storedCopy_setChart ..))

end

/-- Settles O19: an offer is judged by what is held, and a store is the test for completeness of the record it makes. -/
theorem mergeRuleDecides : Obligations.MergeRuleDecides := by
  intro i k j copy s c hc put touched old beats poor
  refine ⟨Chart.answersTo_iff, mergeOffer_unanswered hc, mergeOffer_surplus hc, fun hk hb hfree => ?dropped,
    fun page rest hk hb hfree => ?stored⟩
  case dropped =>
    rw [mergeOffer_beats hc hk hb, hfree]
    rfl
  case stored =>
    intro back d counted stored length complete
    have hd : recordAt stored i = some d := recordAt_storedCopy d old page rest
    have hboot : stored.ssv.boot = s.ssv.boot := storedCopy_boot d old page rest
    have hcomplete : d.complete stored.ssv.boot.poorFloor = true ↔ complete := by
      rw [hboot]
      exact Chart.complete_iff s.ssv.boot.poorFloor (Chart.length_eq d)
    have hoffer : mergeOffer i k j copy s = testComplete i stored := mergeOffer_stores hc hk hb hfree
    rw [hoffer]
    refine ⟨fun hsweep hall => testComplete_closes hd hsweep (hcomplete.mpr hall), fun h => testComplete_stays hd ?_⟩
    rw [hcomplete]
    exact not_and_or.mpr h

/-! ## Hearing leaves the keys of the slots (R55, R80, R111) -/

/-- The keys that reach a slot, none when it is FREE (R55). -/
def keysAt (s : State) (i : SlotNo) : Option (Key × Option Key) := (recordAt s i).map (fun c => (c.key, c.otherKey))

section
variable {s u : State}

/-- Which slot a key reaches depends on the slots' keys alone. -/
theorem slotOf_of_keysAt (h : ∀ i, keysAt u i = keysAt s i) (k : Key) : slotOf u k = slotOf s k := by
  have hreaches (v : State) (i : SlotNo) : (match recordAt v i with | some c => c.answersTo k | none => false) =
      (keysAt v i).any (fun x => x.1 == k || x.2 == some k) := by
    unfold keysAt
    cases recordAt v i <;> rfl
  have hslot (v : State) : slotOf v k = allSlots.find? (fun i => (keysAt v i).any (fun x => x.1 == k || x.2 == some k)) :=
    congrArg (List.find? · allSlots) (funext (hreaches v))
  simp only [hslot, h]

theorem recordAt_of_keysAt {i : SlotNo} {c : Chart} (h : keysAt u i = keysAt s i) (hc : recordAt s i = some c) :
    ∃ d, recordAt u i = some d ∧ d.key = c.key := by
  simp only [keysAt, hc, Option.map_some, Option.map_eq_some_iff, Prod.mk.injEq] at h
  obtain ⟨d, hd, hkey, -⟩ := h
  exact ⟨d, hd, hkey⟩

theorem keysAt_congr (h : u.cst = s.cst) (i : SlotNo) : keysAt u i = keysAt s i :=
  congrArg (Option.map _) (recordAt_congr (congrArg Cst.slots h) i)

theorem keysAt_updateChart {f : Chart → Chart} (hkey : ∀ c, (f c).key = c.key)
    (hother : ∀ c, (f c).otherKey = c.otherKey) (j i : SlotNo) : keysAt (updateChart j f s) i = keysAt s i := by
  unfold keysAt
  rw [recordAt_updateChart]
  split
  · simp only [Option.map_map, Function.comp_def, hkey, hother]
  · rfl

theorem keysAt_setAllDirty (i : SlotNo) : keysAt (setAllDirty s) i = keysAt s i := by
  have hdirty (v : State) (j : SlotNo) : keysAt (updateChart j (fun c => { c with dirty := allDirty }) v) i = keysAt v i :=
    keysAt_updateChart (fun _ => by rfl) (fun _ => by rfl) j i
  simp only [setAllDirty, allSlots, List.foldl_cons, List.foldl_nil, hdirty]

theorem keysAt_markPresent (sender : Station) (stamp : Nat) (i : SlotNo) :
    keysAt (markPresent sender stamp s) i = keysAt s i := by
  unfold markPresent
  split
  · rfl
  · dsimp only
    split
    · exact keysAt_setAllDirty i
    · rfl

theorem keysAt_refreshOf (p : Payload) (stamp : Nat) (i : SlotNo) : keysAt (refreshOf p stamp s) i = keysAt s i := by
  unfold refreshOf refreshReference
  split
  · split
    · rfl
    · exact keysAt_updateChart (fun _ => by rfl) (fun _ => by rfl) _ i
  · rfl

theorem keysAt_heardBy (t : Nat) (sender : Station) (p : Payload) (i : SlotNo) :
    keysAt (heardBy t sender p s) i = keysAt s i := by
  unfold heardBy
  rw [keysAt_refreshOf, keysAt_congr (bump_cst ..), keysAt_markPresent]
  exact keysAt_congr (by simp) i

theorem heardBy_xen (t : Nat) (sender : Station) (p : Payload) : (heardBy t sender p s).xen = s.xen := by
  simp [heardBy]

end

/-! ## A LINE on the wire (R145, R179, R180) -/

theorem be16_bytes (w : BitVec 16) : be16 (w.extractLsb' 8 8) (w.extractLsb' 0 8) = w :=
  (BitVec.extractLsb'_append_extractLsb'_eq_extractLsb' (start₁ := 0) rfl).trans BitVec.extractLsb'_eq_self

theorem readData_line (k : Key) (index : BitVec 16) (count fragment : BitVec 4) (q : Byte) (u : BitVec 16)
    {runs : List Byte} (h1 : 1 ≤ runs.length) (h240 : runs.length ≤ 240) :
    readData .lineK (Payload.lineF k index count fragment q u runs).bytes =
      some (.lineF k index count fragment q u runs) := by
  simp only [Payload.bytes, keyBytes, bytes16, List.cons_append, List.nil_append, readData, h1, h240, and_self, if_true,
    be16_bytes, BitVec.extractLsb'_append_eq_left, BitVec.extractLsb'_append_eq_right]

theorem lengthAllowed_line (k : Key) (index : BitVec 16) (count fragment : BitVec 4) (q : Byte) (u : BitVec 16)
    {runs : List Byte} (h1 : 1 ≤ runs.length) (h240 : runs.length ≤ 240) :
    lengthAllowed .lineK (Payload.lineF k index count fragment q u runs).bytes.length = true := by
  have hlength : (Payload.lineF k index count fragment q u runs).bytes.length = runs.length + 8 := by
    simp [Payload.bytes, keyBytes, bytes16]
  simp only [hlength, lengthAllowed, Bool.and_eq_true, decide_eq_true_eq]
  omega

/-- A LINE frame heard is judged on the state its hearing leaves (R111, R150). -/
theorem exec_lineHeard {s : State} {sender : Station} (h : hears s sender) (t : Nat) (k : Key) (index : BitVec 16)
    (count fragment : BitVec 4) (q : Byte) (u : BitVec 16) {runs : List Byte} (h1 : 1 ≤ runs.length)
    (h240 : runs.length ≤ 240) :
    let p := Payload.lineF k index count fragment q u runs
    exec (.lineHeard t sender (frameTail sender p)) s =
      .next (judgeLine sender (stampAt t s) k index count fragment q u runs (heardBy t sender p s)) :=
  congrArg Host.Outcome.next (hearFrame_frame t sender (.lineF k index count fragment q u runs) s h
    (lengthAllowed_line k index count fragment q u h1 h240) (readData_line k index count fragment q u h1 h240))

/-! ## The completion of a LINE (R52, R120, R150 to R153) -/

section
variable {s : State} {i : SlotNo}

theorem receiverOf_stationOf (r : Receiver) : receiverOf (stationOf r) = some r := dif_pos r.isLt

theorem completeLine_eq {c : Chart} (h : recordAt s i = some c) (r : Receiver) (key : Key) (index q u : Nat)
    (bytes : List Byte) : completeLine i r key index q u bytes s =
      let ended := dropAssembly r key index (dropClaims (Claim.isHeardOf c.key index r) s)
      if (decodeRuns bytes).length = 1200 ∧ q ≤ 100 ∧ u ≤ 1200 then
        setPeerCode i r index (1 + 14 * q / 100)
          (mergeOffer i key index ⟨decodeRuns bytes, q, u, r, .peerCopy⟩ ended)
      else bump 5 1 ended := by
  simp only [completeLine, h, Config.linePixels, ne_eq, ite_not, ← not_le, ← not_and_or, ite_and]
  rfl

variable {r : Receiver} {stamp : Nat} {k : Key} {index : BitVec 16} {count fragment : BitVec 4} {q : Byte}
  {u : BitVec 16} {runs : List Byte}

theorem judgeLine_first (hslot : slotOf s k = some i) (hindex : index.toNat ≤ 2047) (h1 : 1 ≤ count.toNat)
    (h5 : count.toNat ≤ 5) (hfragment : fragment.toNat = 0) :
    judgeLine (stationOf r) stamp k index count fragment q u runs s =
      firstFragment i ⟨r, k, index.toNat, count.toNat, 1, q.toNat, u.toNat, runs, stamp⟩ s := by
  simp only [judgeLine, receiverOf_stationOf, hslot, hfragment, if_true, Config.chartLines]
  exact if_neg (by omega)

theorem judgeLine_later (hslot : slotOf s k = some i) (hindex : index.toNat ≤ 2047) (h1 : 1 ≤ fragment.toNat)
    (hcount : fragment.toNat < count.toNat) (h5 : count.toNat ≤ 5) :
    judgeLine (stationOf r) stamp k index count fragment q u runs s =
      laterFragment i ⟨r, k, index.toNat, count.toNat, 1, q.toNat, u.toNat, runs, stamp⟩ fragment.toNat s := by
  simp only [judgeLine, receiverOf_stationOf, hslot, Config.chartLines]
  exact (if_neg (by omega)).trans (if_neg (by omega))

theorem laterFragment_last {f a : Assembly} {n : Nat} (hfind : s.xen.assemblies.find? (·.isOf f.sender f.key f.index) = some a)
    (hnext : n = a.next) (hcount : f.count = a.count) (hq : f.q = a.q) (hu : f.u = a.u) (hlast : a.next + 1 = a.count) :
    laterFragment i f n s = completeLine i f.sender f.key f.index f.q f.u (a.bytes ++ f.bytes) s := by
  simp only [laterFragment, hfind, hnext, hcount, hq, hu, hlast, and_self, if_true]

/-- The only fragment of a line, or the accepted last one, completes it with the bytes received before (R151, R152). -/
theorem judgeLine_completes {before : List Byte} (hslot : slotOf s k = some i) (hindex : index.toNat ≤ 2047)
    (h5 : count.toNat ≤ 5)
    (hlast : (count = 1 ∧ fragment = 0 ∧ before = []) ∨
      (∃ a, s.xen.assemblies.find? (·.isOf r k index.toNat) = some a ∧ fragment.toNat = a.next ∧ 1 ≤ a.next ∧
        a.next + 1 = count.toNat ∧ a.count = count.toNat ∧ a.q = q.toNat ∧ a.u = u.toNat ∧ a.bytes = before)) :
    judgeLine (stationOf r) stamp k index count fragment q u runs s =
      completeLine i r k index.toNat q.toNat u.toNat (before ++ runs) s := by
  rcases hlast with ⟨rfl, rfl, rfl⟩ | ⟨a, hfind, hnext, h1, hcount, hsame, hq, hu, rfl⟩
  · rw [judgeLine_first hslot hindex (by decide) h5 rfl]
    exact if_pos rfl
  · rw [judgeLine_later hslot hindex (by omega) (by omega) h5]
    exact laterFragment_last hfind hnext hsame.symm hq.symm hu.symm (hcount.trans hsame.symm)

end

/-- Settles O43: the frame is judged on what its hearing leaves, where keys, claims and receptions are as before. -/
theorem lineCompletes : Obligations.LineCompletes := by
  intro s t r k index count fragment q u runs before i c hh h1 h240 hindex h5 hslot hc whose hlast p b bytes ended
  have hxen : b.xen = s.xen := heardBy_xen t (stationOf r) p
  obtain ⟨d, hd, hkey⟩ := recordAt_of_keysAt (keysAt_heardBy t (stationOf r) p i) hc
  have hbslot : slotOf b k = some i := (slotOf_of_keysAt (keysAt_heardBy t (stationOf r) p) k).trans hslot
  have hended : ended = dropAssembly r k index.toNat (dropClaims (Claim.isHeardOf d.key index.toNat r) b) := by
    rw [hkey]
    simp only [ended, ← hxen]
    rfl
  have hjudged : exec (.lineHeard t (stationOf r) (frameTail (stationOf r) p)) s =
      .next (completeLine i r k index.toNat q.toNat u.toNat bytes b) :=
    (exec_lineHeard hh t k index count fragment q u h1 h240).trans
      (congrArg _ (judgeLine_completes hbslot hindex h5 (hxen ▸ hlast)))
  rw [hjudged, completeLine_eq hd, ← hended]
  exact ⟨fun hlength hq hu => congrArg _ (if_pos ⟨hlength, hq, hu⟩), fun hunsound => congrArg _ (if_neg hunsound)⟩

end Sys2Proof.Machine

/-! Proofs for chapters 4 and 5, the chart store and chart identity. -/

namespace Sys2Proof.Machine

/-! ## The rules of the store's operations -/

theorem mem_allSlots (i : SlotNo) : i ∈ allSlots := by
  revert i
  decide

/-! ### Keys held (R55, R80) -/

section
variable {s u : State} {i : SlotNo} {c : Chart} {k : Key}

theorem keyHeld_iff : keyHeld s k = true ↔ ∃ i c, recordAt s i = some c ∧ c.answersTo k = true := by
  simp only [keyHeld, slotOf, List.find?_isSome]
  constructor
  · rintro ⟨i, _, h⟩
    split at h
    · next c hc => exact ⟨i, c, hc, h⟩
    · cases h
  · rintro ⟨i, c, hc, h⟩
    exact ⟨i, mem_allSlots i, by simpa only [hc] using h⟩

theorem keyHeld_eq_false_iff : keyHeld s k = false ↔ ∀ i c, recordAt s i = some c → c.answersTo k = false := by
  rw [← Bool.not_eq_true, keyHeld_iff]
  simp

/-- Which keys are held depends on the slots alone. -/
theorem keyHeld_congr (h : u.cst.slots = s.cst.slots) (k : Key) : keyHeld u k = keyHeld s k := by
  simp only [keyHeld, slotOf_congr h]

theorem answersTo_key (c : Chart) : c.answersTo c.key = true := Chart.answersTo_iff.mpr (.inl rfl)

theorem key_ne_of_unheld (h : keyHeld s k = false) (hc : recordAt s i = some c) : c.key ≠ k := by
  rintro rfl
  exact absurd (keyHeld_eq_false_iff.mp h i c hc) (by simp [answersTo_key])

theorem otherKey_ne_of_unheld (h : keyHeld s k = false) (hc : recordAt s i = some c) : c.otherKey ≠ some k := fun hk =>
  absurd (Chart.answersTo_iff.mpr (.inr hk)) (by simp [keyHeld_eq_false_iff.mp h i c hc])

end

/-! ### A close (R61, R62, R64) -/

/-- A record that has entered HELD (R64). -/
def Chart.enteredHeld (c : Chart) : Chart := { c with state := .held, wantDue := none, sweepDeadline := none, used := true }

/-- A record a close has reached (R61). -/
def Chart.closedBy (c : Chart) (r : CloseReason) : Chart := { c with closeReason := some r, bound := false }

/-- A record a close has put in SWEEP until a deadline (R62). -/
def Chart.sweptBy (c : Chart) (r : CloseReason) (deadline : Nat) : Chart :=
  { c.closedBy r with state := .sweep, sweepDeadline := some deadline }

section
variable {s : State} {i : SlotNo} {c : Chart}

theorem setChart_setChart (a b : Option Chart) : setChart i a (setChart i b s) = setChart i a s := by
  simp [setChart]

theorem enterHeld_eq (h : recordAt s i = some c) (detail : Nat) : enterHeld i detail s =
    raiseNote 5 (some c.key) (BitVec.ofNat 16 detail) (setChart i (some c.enteredHeld) s) := by
  simp only [enterHeld, h]
  rfl

@[simp] theorem recordAt_raiseNote (n : Nat) (k : Option Key) (d : BitVec 16) (i : SlotNo) :
    recordAt (raiseNote n k d s) i = recordAt s i := recordAt_congr (by simp) i

@[simp] theorem recordAt_setOpenReq (j : SlotNo) (r : OpenRequest) (i : SlotNo) :
    recordAt (setOpenReq j r s) i = recordAt s i := rfl

theorem closeSlot_unlive (h : recordAt s i = some c) (hs : c.state ≠ .live) (r : CloseReason) : closeSlot i r s = s := by
  simp only [closeSlot, h]
  exact if_pos hs

/-- Without sweep seconds a close puts the slot in HELD at once (R61). -/
theorem closeSlot_atOnce (h : recordAt s i = some c) (hs : c.state = .live) (hsecs : s.ssv.boot.sweepSeconds = 0)
    (r : CloseReason) : closeSlot i r s =
      raiseNote 5 (some c.key) 3 (setChart i (some (c.closedBy r).enteredHeld) (setOpenReq i .nothing s)) := by
  have hclosed : recordAt (setOpenReq i .nothing (setChart i (some (c.closedBy r)) s)) i = some (c.closedBy r) := by simp
  have hcollapse : setChart i (some (c.closedBy r).enteredHeld)
      (setOpenReq i .nothing (setChart i (some (c.closedBy r)) s)) =
        setChart i (some (c.closedBy r).enteredHeld) (setOpenReq i .nothing s) :=
    setChart_setChart (s := setOpenReq i .nothing s) ..
  calc closeSlot i r s = enterHeld i 3 (setOpenReq i .nothing (setChart i (some (c.closedBy r)) s)) := by
        simp only [closeSlot, h]
        exact (if_neg (not_not.mpr hs)).trans (if_pos hsecs)
    _ = _ := by
        rw [enterHeld_eq hclosed, hcollapse]
        rfl

/-- With sweep seconds a close puts the slot in SWEEP, where it is tested for completeness (R62). -/
theorem closeSlot_sweeps (h : recordAt s i = some c) (hs : c.state = .live) (hsecs : s.ssv.boot.sweepSeconds ≠ 0)
    (r : CloseReason) : closeSlot i r s =
      testComplete i (raiseNote 4 (some c.key) (BitVec.ofNat 16 (reasonCode r))
        (setChart i (some (c.sweptBy r (s.now + s.ssv.boot.sweepSeconds * 1000))) (setOpenReq i .nothing s))) := by
  simp only [closeSlot, h]
  exact (if_neg (not_not.mpr hs)).trans (if_neg hsecs)

/-- What a close leaves of a slot that is not bound is not bound. -/
theorem closeSlot_unbound (h : recordAt s i = some c) (hb : c.bound = false) (r : CloseReason) {d : Chart}
    (hd : recordAt (closeSlot i r s) i = some d) : d.bound = false := by
  by_cases hs : c.state = .live
  · by_cases hsecs : s.ssv.boot.sweepSeconds = 0
    · rw [closeSlot_atOnce h hs hsecs, recordAt_raiseNote, recordAt_setChart_same] at hd
      cases hd
      rfl
    · rw [closeSlot_sweeps h hs hsecs] at hd
      generalize hswept : c.sweptBy r (s.now + s.ssv.boot.sweepSeconds * 1000) = swept at hd
      generalize hv : raiseNote 4 _ _ _ = v at hd
      have hrecord : recordAt v i = some swept := by simp [← hv]
      have hunbound : swept.bound = false := by rw [← hswept]; rfl
      by_cases hcomplete : swept.state = .sweep ∧ swept.complete v.ssv.boot.poorFloor = true
      · rw [testComplete_closes hrecord hcomplete.1 hcomplete.2, recordAt_raiseNote, recordAt_setChart_same] at hd
        cases hd
        exact hunbound
      · rw [testComplete_stays hrecord hcomplete, hrecord] at hd
        cases hd
        exact hunbound
  · rw [closeSlot_unlive h hs, h] at hd
    cases hd
    exact hb

end

/-! ### Freeing and finding a slot (R56, R57, R77) -/

section
variable {s : State}

/-- The pages of a record's lines. -/
def Chart.pages (c : Chart) : List Nat := c.lineMap.map (fun e => e.2.page)

theorem freeSlot_cst {i : SlotNo} {c : Chart} (h : recordAt s i = some c) :
    (freeSlot i s).cst = (setChart i none (returnPages c.pages s)).cst := by
  simp [freeSlot, h, Chart.pages]

theorem recordAt_freeSlot (i j : SlotNo) : recordAt (freeSlot i s) j = if i = j then none else recordAt s j := by
  cases h : recordAt s i with
  | none =>
    have hsame : freeSlot i s = s := by simp only [freeSlot, h]
    rw [hsame]
    split
    · next hij => rw [← hij, h]
    · rfl
  | some c =>
    rw [recordAt_congr (congrArg Cst.slots (freeSlot_cst h)), recordAt_setChart]
    rfl

variable {n : Nat} {c : Chart}

/-- The state with the second-chance pointer one place on (R57). -/
def pointerMoved (s : State) : State := { s with cst := { s.cst with evictPtr := s.cst.evictPtr + 1 } }

@[simp] theorem recordAt_pointerMoved (i : SlotNo) : recordAt (pointerMoved s) i = recordAt s i := rfl

theorem secondChance_free (h : recordAt s s.cst.evictPtr = none) :
    secondChance (n + 1) s = secondChance n (pointerMoved s) := by
  simp only [secondChance, h]
  rfl

/-- A slot not HELD is passed (R57). -/
theorem secondChance_passes (h : recordAt s s.cst.evictPtr = some c) (hs : c.state ≠ .held) :
    secondChance (n + 1) s = secondChance n (pointerMoved s) := by
  simp only [secondChance, h]
  exact if_pos hs

/-- A HELD slot that was used gets its second chance (R57). -/
theorem secondChance_clears (h : recordAt s s.cst.evictPtr = some c) (hs : c.state = .held) (hu : c.used = true) :
    secondChance (n + 1) s =
      secondChance n (setChart s.cst.evictPtr (some { c with used := false }) (pointerMoved s)) := by
  simp only [secondChance, h, hs, hu, ne_eq, not_true_eq_false, if_false, if_true]
  rfl

/-- A HELD slot that was not used is evicted (R57). -/
theorem secondChance_evicts (h : recordAt s s.cst.evictPtr = some c) (hs : c.state = .held) (hu : c.used = false) :
    secondChance (n + 1) s =
      (raiseNote 6 (some c.key) 1 (freeSlot s.cst.evictPtr (pointerMoved s)), some s.cst.evictPtr) := by
  simp only [secondChance, h, hs, hu, ne_eq, not_true_eq_false, if_false, Bool.false_eq_true]
  rfl

/-- One visit of the pass, by the record it finds (R57): the four cases of `secondChance` with a visit left. -/
theorem secondChance_visit (n : Nat) (s : State) :
    (secondChance (n + 1) s = secondChance n (pointerMoved s)) ∨
    (∃ c, recordAt s s.cst.evictPtr = some c ∧ secondChance (n + 1) s =
      secondChance n (setChart s.cst.evictPtr (some { c with used := false }) (pointerMoved s))) ∨
    (∃ c, recordAt s s.cst.evictPtr = some c ∧ secondChance (n + 1) s =
      (raiseNote 6 (some c.key) 1 (freeSlot s.cst.evictPtr (pointerMoved s)), some s.cst.evictPtr)) := by
  cases h : recordAt s s.cst.evictPtr with
  | none => exact .inl (secondChance_free h)
  | some c =>
    by_cases hs : c.state = .held
    · cases hu : c.used with
      | true => exact .inr (.inl ⟨c, rfl, secondChance_clears h hs hu⟩)
      | false => exact .inr (.inr ⟨c, rfl, secondChance_evicts h hs hu⟩)
    · exact .inl (secondChance_passes h hs)

/-- The slot a pass answers is FREE behind it (R57). -/
theorem recordAt_secondChance {i : SlotNo} (h : (secondChance n s).2 = some i) :
    recordAt (secondChance n s).1 i = none := by
  induction n generalizing s with
  | zero => cases h
  | succ n ih =>
    rcases secondChance_visit n s with hv | ⟨c, _, hv⟩ | ⟨c, _, hv⟩ <;> rw [hv] at h ⊢
    · exact ih h
    · exact ih h
    · cases h
      rw [recordAt_raiseNote, recordAt_freeSlot, if_pos rfl]

/-- A pass brings no key into the slots (R57). -/
theorem keyHeld_secondChance {k : Key} (h : keyHeld s k = false) : keyHeld (secondChance n s).1 k = false := by
  rw [keyHeld_eq_false_iff] at h
  induction n generalizing s with
  | zero => exact keyHeld_eq_false_iff.mpr h
  | succ n ih =>
    rcases secondChance_visit n s with hv | ⟨c, hc, hv⟩ | ⟨c, hc, hv⟩ <;> rw [hv]
    · exact ih h
    · refine ih fun j d hd => ?_
      rw [recordAt_setChart] at hd
      split at hd
      · cases hd
        exact h _ c hc
      · exact h j d hd
    · refine keyHeld_eq_false_iff.mpr fun j d hd => ?_
      rw [recordAt_raiseNote, recordAt_freeSlot] at hd
      split at hd
      · cases hd
      · exact h j d hd

theorem lowestFree_iff {i : SlotNo} :
    lowestFree s = some i ↔ recordAt s i = none ∧ ∀ j, j < i → recordAt s j ≠ none := by
  have hslots : allSlots = List.finRange 4 := by decide
  simp only [lowestFree, hslots, List.find?_eq_some_iff_getElem, Option.isNone_iff_eq_none, Bool.not_eq_true',
    List.getElem_finRange, List.length_finRange]
  constructor
  · rintro ⟨hfree, m, hm, rfl, hbelow⟩
    exact ⟨hfree, fun j hj => by simpa [Option.isSome_iff_ne_none] using hbelow j.val hj⟩
  · rintro ⟨hfree, hbelow⟩
    exact ⟨hfree, i.val, i.isLt, rfl, fun m hm => by simpa [Option.isSome_iff_ne_none] using hbelow ⟨m, hm.trans i.isLt⟩ hm⟩

theorem findSlot_lowest {i : SlotNo} (h : lowestFree s = some i) : findSlot s = (s, some i) := by
  simp only [findSlot, h]

theorem findSlot_pass (h : lowestFree s = none) : findSlot s = secondChance 5 s := by
  simp only [findSlot, h]

/-- The slot an allocation finds is FREE (R56, R57). -/
theorem recordAt_findSlot {i : SlotNo} (h : (findSlot s).2 = some i) : recordAt (findSlot s).1 i = none := by
  cases hfree : lowestFree s with
  | none =>
    rw [findSlot_pass hfree] at h ⊢
    exact recordAt_secondChance h
  | some j =>
    rw [findSlot_lowest hfree] at h ⊢
    cases h
    exact (lowestFree_iff.mp hfree).1

theorem keyHeld_findSlot {k : Key} (h : keyHeld s k = false) : keyHeld (findSlot s).1 k = false := by
  cases hfree : lowestFree s with
  | none => rw [findSlot_pass hfree]; exact keyHeld_secondChance h
  | some j => rw [findSlot_lowest hfree]; exact h

end

/-! ### A fresh own key (R81) -/

section
variable {s : State}

/-- The search for a sequence ends at one whose own key no slot holds, when it meets one at all. -/
theorem keyHeld_freeSequence {n : Nat} {q : Byte} (h : ∃ t, t < n ∧ keyHeld s (ownKey s (q + BitVec.ofNat 8 t)) = false) :
    keyHeld s (ownKey s (freeSequence s n q)) = false := by
  induction n generalizing q with
  | zero => obtain ⟨t, ht, _⟩ := h; omega
  | succ n ih =>
    rw [freeSequence]
    split
    · next hheld =>
      obtain ⟨t, ht, hfree⟩ := h
      cases t with
      | zero => simp [hheld] at hfree
      | succ t =>
        refine ih ⟨t, by omega, ?_⟩
        have hnext : q + 1 + BitVec.ofNat 8 t = q + BitVec.ofNat 8 (t + 1) := by
          rw [BitVec.add_assoc, Nat.add_comm t 1, BitVec.ofNat_add]
          rfl
        rwa [hnext]
    · next hfree => exact Bool.not_eq_true _ ▸ hfree

/-- Four slots hold at most eight keys, so of nine own keys in a row one is free. -/
theorem exists_free_ownKey (s : State) (q : Byte) : ∃ t, t < 9 ∧ keyHeld s (ownKey s (q + BitVec.ofNat 8 t)) = false := by
  by_contra hall
  have hheld (t : Fin 9) : ∃ (i : SlotNo) (second : Bool), ((recordAt s i).bind fun c =>
      if second then c.otherKey else some c.key) = some (ownKey s (q + BitVec.ofNat 8 t.val)) := by
    have hkey : keyHeld s (ownKey s (q + BitVec.ofNat 8 t.val)) = true := by
      by_contra hfree
      exact hall ⟨t.val, t.isLt, Bool.not_eq_true _ ▸ hfree⟩
    obtain ⟨i, c, hc, hk⟩ := keyHeld_iff.mp hkey
    rcases Chart.answersTo_iff.mp hk with hk | hk
    · exact ⟨i, false, by simp [hc, hk]⟩
    · exact ⟨i, true, by simp [hc, hk]⟩
  choose slot second hplace using hheld
  obtain ⟨a, b, hab, hsame⟩ := Fintype.exists_ne_map_eq_of_card_lt (fun t => (slot t, second t)) (by decide)
  obtain ⟨hslot, hsecond⟩ := Prod.mk.inj hsame
  have hkeys := (hplace a).symm.trans (hslot ▸ hsecond ▸ hplace b)
  have hsequence : BitVec.ofNat 8 a.val = BitVec.ofNat 8 b.val := by simpa [ownKey] using hkeys
  have ha := a.isLt
  have hb := b.isLt
  have hnumber := congrArg BitVec.toNat hsequence
  simp only [BitVec.toNat_ofNat] at hnumber
  exact hab (Fin.ext (by omega))

theorem keyHeld_nextSequence (s : State) : keyHeld s (ownKey s (nextSequence s)) = false :=
  keyHeld_freeSequence (exists_free_ownKey s s.cst.ownSequence)

end

/-! ## What a step can do to the chart store -/

/-- What of a state the invariants of the chart store speak of. -/
structure StoreView where
  phase : Phase
  boot : BootFields
  pages : List (Nat × Pixels)
  free : List Nat
  slots : Vector (Option Chart) 4
  framer : FramerState
  bound : Option SlotNo

def storeView (s : State) : StoreView :=
  ⟨s.phase, s.ssv.boot, s.cst.pages, s.cst.free, s.cst.slots, s.lfr.state, s.lfr.bound⟩

/-- A record that is bound is LIVE and its slot is the framer's, in IMAGE (R55). -/
def RightlyBound (s : State) (i : SlotNo) (c : Chart) : Prop :=
  c.bound = true → c.state = .live ∧ s.lfr.state = .image ∧ s.lfr.bound = some i

/-- The lines of a record and their summaries (R65, R66). -/
def Chart.lines (c : Chart) : List (Nat × LineEntry) × Nat × Nat × Option Nat :=
  (c.lineMap, c.heldCount, c.poorCount, c.highestHeld)

/-- The share keys of a record (R55). -/
def Chart.keys (c : Chart) : Key × Option Key := (c.key, c.otherKey)

theorem Chart.lines_eq_iff {c d : Chart} : d.lines = c.lines ↔ d.lineMap = c.lineMap ∧ d.heldCount = c.heldCount ∧
    d.poorCount = c.poorCount ∧ d.highestHeld = c.highestHeld := by
  simp only [Chart.lines, Prod.mk.injEq]

theorem Chart.keys_eq_iff {c d : Chart} : d.keys = c.keys ↔ d.key = c.key ∧ d.otherKey = c.otherKey := by
  simp only [Chart.keys, Prod.mk.injEq]

/-- A slot's record `c` may become `d`: its lines stay, it is bound rightly if it was, and a new key is one no slot holds. -/
structure Revision (s : State) (i : SlotNo) (c d : Chart) : Prop where
  lines : d.lines = c.lines
  bound : RightlyBound s i c → RightlyBound s i d
  keys : ∀ k, d.answersTo k = true → c.answersTo k = true ∨ keyHeld s k = false
  apart : c.otherKey ≠ some c.key → d.otherKey ≠ some d.key

section
variable {s : State} {i : SlotNo} {c d : Chart}

/-- A revision that leaves lines and keys. -/
theorem Revision.of_keys (hlines : d.lines = c.lines) (hkeys : d.keys = c.keys)
    (hbound : RightlyBound s i c → RightlyBound s i d) : Revision s i c d := by
  obtain ⟨hkey, hother⟩ := Chart.keys_eq_iff.mp hkeys
  exact ⟨hlines, hbound, fun k h => .inl (by simpa only [Chart.answersTo, hkey, hother] using h),
    fun h => by rwa [hkey, hother]⟩

/-- A revision that moves neither lines nor keys nor binding. -/
theorem Revision.of_eq (h : (d.lines, d.keys, d.bound, d.state) = (c.lines, c.keys, c.bound, c.state)) :
    Revision s i c d := by
  simp only [Prod.mk.injEq] at h
  obtain ⟨hlines, hkeys, hb, hs⟩ := h
  exact .of_keys hlines hkeys (by simp only [RightlyBound, hb, hs, imp_self])

/-- A revision that leaves the record unbound and its lines and keys as they are. -/
theorem Revision.of_unbound (hunbound : RightlyBound s i c → d.bound = false)
    (h : (d.lines, d.keys) = (c.lines, c.keys)) : Revision s i c d := by
  obtain ⟨hlines, hkeys⟩ := Prod.mk.inj h
  exact .of_keys hlines hkeys fun hc hd => absurd hd (by simp [hunbound hc])

end

/-- The acts on the chart store that a step is made of. -/
inductive Move (s : State) : State → Prop
  /-- An act elsewhere. -/
  | aside {u : State} (h : storeView u = storeView s) : Move s u
  /-- The framer moves on, with no slot bound to it. -/
  | reframe (f : Lfr)
      (h : s.lfr.state = .image → ∀ i c, s.lfr.bound = some i → recordAt s i = some c → c.bound = false) :
      Move s (setLfr f s)
  | revise {i : SlotNo} {c d : Chart} (hc : recordAt s i = some c) (h : Revision s i c d) : Move s (setChart i (some d) s)
  /-- A fresh chart takes a FREE slot (R56). -/
  | install {i : SlotNo} {key : Key} (tag : Nat) (rate : Rate) {tLocal : Option Nat} (tPeer : Option Int) (now : Nat)
      (hrun : s.phase = .running) (hfree : recordAt s i = none) (hkey : keyHeld s key = false)
      (hbound : tLocal.isSome = true → s.lfr.state = .image ∧ s.lfr.bound = some i) :
      Move s (setChart i (some (freshChart key tag rate tLocal tPeer now)) s)
  /-- A copy no worse than the one held is stored (R73). -/
  | store {i : SlotNo} {c : Chart} {j page : Nat} {copy : Copy} {rest : List Nat} (hc : recordAt s i = some c)
      (hj : j < 2048) (hfree : s.cst.free = page :: rest) (hbest : ∀ e, mapGet c.lineMap j = some e → e.q ≤ copy.q) :
      Move s (storedCopy i (c.store s.ssv.boot.poorFloor j page copy) (mapGet c.lineMap j) copy page rest s)
  /-- A slot's pages return and it becomes FREE (R77). -/
  | release {i : SlotNo} {c : Chart} (hc : recordAt s i = some c) : Move s (setChart i none (returnPages c.pages s))
  | reset : Move s (enterReset s)
  /-- The phase and the boot fields move, out of operation. -/
  | powerUp {u : State} (h : s.phase ≠ .running) (hcst : u.cst = s.cst) (hlfr : u.lfr = s.lfr) : Move s u

/-- Acts on the chart store, one after the other. -/
def Moves : State → State → Prop := Relation.ReflTransGen Move

theorem Moves.refl (s : State) : Moves s s := Relation.ReflTransGen.refl

/-! ### The shared operations -/

section
variable {o s u : State}

theorem Moves.move (h : Moves o s) (m : Move s u) : Moves o u := Relation.ReflTransGen.tail h m

theorem Moves.aside (h : Moves o s) (hv : storeView u = storeView s) : Moves o u :=
  h.move (.aside hv)

/-- The framer moves, its state and its bound slot as they were. -/
theorem Moves.setLfr (h : Moves o s) {f : Lfr} (hf : (f.state, f.bound) = (s.lfr.state, s.lfr.bound)) :
    Moves o (setLfr f s) := by
  obtain ⟨hstate, hbound⟩ := Prod.mk.inj hf
  exact h.aside (by simp [storeView, hstate, hbound])

/-- Out of IMAGE the framer has no slot bound. -/
theorem Moves.reframe (h : Moves o s) (hs : s.lfr.state ≠ .image) (f : Lfr) : Moves o (Machine.setLfr f s) :=
  h.move (.reframe f fun himage => absurd himage hs)

theorem Moves.updateChart (h : Moves o s) {i : SlotNo} {f : Chart → Chart}
    (hf : ∀ c, recordAt s i = some c → Revision s i c (f c)) : Moves o (updateChart i f s) := by
  unfold Machine.updateChart
  split
  · exact h
  · next c hc => exact h.move (.revise hc (hf c hc))

theorem Moves.refreshReference (h : Moves o s) (k : Key) (t : Nat) : Moves o (refreshReference k t s) := by
  unfold Machine.refreshReference
  split
  · exact h
  · exact h.updateChart fun _ _ => .of_eq (by rfl)

/-- A run over a list is acts on the store when each of its acts is. -/
theorem Moves.foldl {α : Type} {act : State → α → State} (hact : ∀ a {s}, Moves o s → Moves o (act s a)) (l : List α)
    {s : State} (h : Moves o s) : Moves o (l.foldl act s) := by
  induction l generalizing s with
  | nil => exact h
  | cons a rest ih => exact ih (hact a h)

theorem Moves.setAllDirty (h : Moves o s) : Moves o (setAllDirty s) :=
  Moves.foldl (fun _ _ hs => hs.updateChart fun _ _ => .of_eq (by rfl)) allSlots h

theorem Moves.raiseNote (h : Moves o s) (n : Nat) (k : Option Key) (d : BitVec 16) : Moves o (raiseNote n k d s) :=
  h.aside (by simp [storeView])

theorem Moves.bump (h : Moves o s) (n : Fin 16) (k : Nat) : Moves o (bump n k s) := h.aside (by simp [storeView])

theorem Moves.enqueue (h : Moves o s) (e : Entry) : Moves o (enqueue e s).1 := h.aside (by simp [storeView])

theorem Moves.setSlc (h : Moves o s) (l : Slc) : Moves o (setSlc l s) := h.aside (by simp [storeView])

theorem Moves.tryBuild (h : Moves o s) : Moves o (tryBuild s) := h.aside (by simp [storeView])

theorem Moves.queueOpen (h : Moves o s) (owner : Block) (i : SlotNo) : Moves o (queueOpen owner i s) :=
  h.aside (by simp [storeView])

theorem Moves.advance (h : Moves o s) (t : Nat) : Moves o (advance t s) := h.aside (by simp [storeView])

/-! ### The chart store -/

/-- Only a slot that is not LIVE, or that a close has unbound, enters HELD (R64). -/
theorem Moves.enterHeld (h : Moves o s) {i : SlotNo} (hs : ∀ c, recordAt s i = some c → c.state = .live → c.bound = false)
    (d : Nat) : Moves o (enterHeld i d s) := by
  cases hc : recordAt s i with
  | none => simpa only [Machine.enterHeld, hc] using h
  | some c =>
    rw [enterHeld_eq hc]
    refine (h.move (.revise hc (.of_unbound (fun hbound => ?_) (by rfl)))).raiseNote _ _ _
    exact Bool.eq_false_iff.mpr fun hb => absurd (hs c hc (hbound hb).1) (by rw [show c.bound = true from hb]; decide)

theorem Moves.testComplete (h : Moves o s) (i : SlotNo) : Moves o (testComplete i s) := by
  unfold Machine.testComplete
  split
  · exact h
  · next c hc =>
    split
    · next hsweep =>
      refine h.enterHeld (fun d hd hlive => ?_) 1
      obtain rfl : c = d := Option.some.inj (hc.symm.trans hd)
      rw [hsweep.1] at hlive
      cases hlive
    · exact h

theorem Moves.closeSlot (h : Moves o s) (i : SlotNo) (r : CloseReason) : Moves o (closeSlot i r s) := by
  cases hc : recordAt s i with
  | none => simpa only [Machine.closeSlot, hc] using h
  | some c =>
    by_cases hs : c.state = .live
    · have hreleased : Moves o (setOpenReq i .nothing s) := h.aside (by simp [storeView])
      by_cases hsecs : s.ssv.boot.sweepSeconds = 0
      · rw [closeSlot_atOnce hc hs hsecs]
        exact (hreleased.move (.revise hc (.of_unbound (fun _ => rfl) (by rfl)))).raiseNote _ _ _
      · rw [closeSlot_sweeps hc hs hsecs]
        exact ((hreleased.move (.revise hc (.of_unbound (fun _ => rfl) (by rfl)))).raiseNote _ _ _).testComplete i
    · rwa [closeSlot_unlive hc hs]

theorem Moves.mergeOffer (h : Moves o s) (i : SlotNo) (k : Key) {j : Nat} (hj : j < 2048) (copy : Copy) :
    Moves o (mergeOffer i k j copy s) := by
  cases hc : recordAt s i with
  | none => simpa only [Machine.mergeOffer, hc] using h
  | some c =>
    cases hk : c.answersTo k with
    | false => rwa [mergeOffer_unanswered hc hk]
    | true =>
      have htouched : Moves o (setChart i (some { c with lastReference := s.now }) s) :=
        h.move (.revise hc (.of_eq (by rfl)))
      by_cases hb : copy.beats s.ssv.boot.margin (mapGet c.lineMap j)
      · rw [mergeOffer_beats hc hk hb]
        dsimp only
        split
        · exact htouched.aside (by simp [storeView])
        · next page rest hfree =>
          rw [storeCopy_eq]
          exact (htouched.move (.store (recordAt_setChart_same ..) hj hfree
            fun e he => (Nat.le_add_right ..).trans (hb e he))).testComplete i
      · rw [mergeOffer_surplus hc hk hb]
        dsimp only
        split
        · exact htouched.bump 13 1
        · exact htouched

theorem Moves.commitCopy (h : Moves o s) (i : SlotNo) (index : Nat) (copy : Copy) :
    Moves o (commitCopy i index copy s) := by
  unfold Machine.commitCopy
  split
  · exact h.bump 13 1
  · next c hc =>
    dsimp only
    split
    · next hshared =>
      simp only [Config.chartLines] at hshared
      exact (h.move (.revise hc (.of_eq (by rfl)))).mergeOffer i _ (by omega) copy
    · exact h.bump 13 1

theorem Moves.freeSlot (h : Moves o s) (i : SlotNo) : Moves o (freeSlot i s) := by
  cases hc : recordAt s i with
  | none => simpa only [Machine.freeSlot, hc] using h
  | some c => exact (h.move (.release hc)).aside (by simp [storeView, freeSlot_cst hc])

theorem Moves.secondChance (n : Nat) {s : State} (h : Moves o s) : Moves o (secondChance n s).1 := by
  induction n generalizing s with
  | zero => exact h
  | succ n ih =>
    have hmoved : Moves o (pointerMoved s) := h.aside rfl
    rcases secondChance_visit n s with hv | ⟨c, hc, hv⟩ | ⟨c, hc, hv⟩ <;> rw [hv]
    · exact ih hmoved
    · exact ih (hmoved.move (.revise hc (.of_eq (by rfl))))
    · exact (hmoved.freeSlot _).raiseNote _ _ _

theorem Moves.findSlot (h : Moves o s) : Moves o (findSlot s).1 := by
  unfold Machine.findSlot
  split
  · exact h
  · exact h.secondChance 5

theorem Moves.endLocalImage (h : Moves o s) (i : SlotNo) (r : CloseReason) (highest : Option Nat) :
    Moves o (endLocalImage i r highest s) := by
  cases hc : recordAt s i with
  | none => simpa only [Machine.endLocalImage, hc] using h
  | some c =>
    rw [endLocalImage_eq hc]
    exact ((h.enqueue _).move (.revise ((recordAt_congr (by simp) i).trans hc)
      (.of_unbound (fun _ => rfl) (by rfl)))).closeSlot i r

end

/-! ### The framer -/

/-- The better of a best slot so far and the next slot (R83, R89, R90). -/
def nearer (candidate : SlotNo → Option Int) (best : Option (SlotNo × Int)) (i : SlotNo) : Option (SlotNo × Int) :=
  match candidate i, best with
  | none, _ => best
  | some o, none => some (i, o)
  | some o, some (j, p) => if o.natAbs < p.natAbs then some (i, o) else some (j, p)

theorem nearestSlot_eq (candidate : SlotNo → Option Int) :
    nearestSlot candidate = allSlots.foldl (nearer candidate) none := rfl

/-- The slot found nearest is one of the candidates (R83). -/
theorem nearestSlot_candidate {candidate : SlotNo → Option Int} {i : SlotNo} {o : Int}
    (h : nearestSlot candidate = some (i, o)) : candidate i = some o := by
  have hfold : ∀ (l : List SlotNo) (best : Option (SlotNo × Int)), (∀ j p, best = some (j, p) → candidate j = some p) →
      ∀ j p, l.foldl (nearer candidate) best = some (j, p) → candidate j = some p := by
    intro l
    induction l with
    | nil => exact fun _ hbest => hbest
    | cons i rest ih =>
      intro best hbest
      refine ih _ fun j p hjp => ?_
      unfold nearer at hjp
      split at hjp
      · exact hbest j p hjp
      · next hi => cases hjp; exact hi
      · next hi =>
        split at hjp
        · cases hjp; exact hi
        · exact hbest j p hjp
  exact hfold allSlots none (fun _ _ hn => by cases hn) i o (nearestSlot_eq candidate ▸ h)

section
variable {o s : State}

/-- The slot request at IMAGE entry, and its answer bound: the framer's slot is named, then it takes its record (R28, R59, R83). -/
theorem Moves.bindRequested (h : Moves o s) (hrun : s.phase = .running) (hstate : s.lfr.state = .image)
    (hbound : s.lfr.bound = none) (r : Rate) (tLocal : Nat) :
    Moves o (Machine.setLfr { s.lfr with bound := (requestSlot r tLocal s).2 } (requestSlot r tLocal s).1) := by
  have hname {v : State} (hv : Moves o v) (hlfr : v.lfr = s.lfr) (i : SlotNo) :
      Moves o (Machine.setLfr { s.lfr with bound := some i } v) :=
    hv.move (.reframe _ fun _ j c hj => by rw [hlfr, hbound] at hj; cases hj)
  cases hnear : nearestSlot (bindCandidate s r tLocal) with
  | some found =>
    obtain ⟨i, offset⟩ := found
    obtain ⟨c, _, hc, hlive, _⟩ := (bindCandidate_iff s r tLocal i offset).mp (nearestSlot_candidate hnear)
    rw [requestSlot_binds hnear, bindSlot_eq hc]
    have hkept : Revision (Machine.setLfr { s.lfr with bound := some i } s) i c
        { c with bound := true, offset := some offset, localTransition := some tLocal } :=
      ⟨rfl, fun _ _ => ⟨hlive, hstate, rfl⟩, fun _ hk => .inl hk, id⟩
    exact ((hname h rfl i).move (.revise hc hkept)).aside (by simp [storeView])
  | none =>
    cases hfind : (Machine.findSlot s).2 with
    | none =>
      rw [requestSlot_fails hnear hfind]
      exact h.findSlot.aside (by simp [storeView, hbound])
    | some i =>
      rw [requestSlot_allocates hnear hfind]
      have hnamed := hname h.findSlot (by simp) i
      refine (hnamed.move (.install (i := i) (key := ownKey (Machine.findSlot s).1 (nextSequence (Machine.findSlot s).1))
        s.ssv.boot.tag r (tLocal := some tLocal) none s.now (by simpa using hrun) (recordAt_findSlot hfind)
        (keyHeld_nextSequence _) fun _ => ⟨hstate, rfl⟩)).aside ?_
      simp [storeView, openedChart, State.now]

/-- A commit moves records of the store, and of the framer the highest local index (R33). -/
theorem Moves.commitLine (h : Moves o s) (l : TailLine) : Moves o (commitLine l s) := by
  have hnoted : Moves o (Machine.setLfr { s.lfr with highest := some l.index } s) := h.setLfr (by rfl)
  unfold Machine.commitLine
  dsimp only
  split
  · exact hnoted.bump 13 1
  · exact hnoted.commitCopy _ _ _

theorem Moves.setTail (h : Moves o s) (tail : List TailLine) : Moves o (setTail tail s) := Moves.setLfr h (by rfl)

theorem Moves.commitDue (pos : Position) (tail : List TailLine) {s : State} (h : Moves o s) :
    Moves o (commitDue pos tail s) := by
  induction tail generalizing s with
  | nil => exact h.setTail _
  | cons l rest ih =>
    unfold Machine.commitDue
    split
    · exact ih (h.commitLine l)
    · exact h.setTail _

theorem Moves.commitTail (h : Moves o s) (keep : TailLine → Bool) : Moves o (commitTail keep s) :=
  (Moves.foldl (fun l _ hs => hs.commitLine l) (s.lfr.tail.filter keep) h).setTail _

/-- The end of an image unbinds the framer's slot before the framer leaves it (R39, R93). -/
theorem Moves.finishImage (h : Moves o s) (reason : CloseReason) (seen : Bool) : Moves o (finishImage reason seen s) := by
  cases hbound : s.lfr.bound with
  | none =>
    rw [finishImage_unbound hbound]
    exact (h.raiseNote _ _ _).move (.reframe _ fun _ j c hj => by simp [hbound] at hj)
  | some i =>
    cases hc : recordAt s i with
    | none =>
      have hnothing : Machine.endLocalImage i reason s.lfr.highest s = s := by simp only [Machine.endLocalImage, hc]
      simp only [Machine.finishImage, hbound, hnothing]
      refine (h.raiseNote _ _ _).move (.reframe _ fun _ j c hj hcj => ?_)
      obtain rfl : i = j := by simpa [hbound] using hj
      rw [recordAt_raiseNote, hc] at hcj
      cases hcj
    | some c =>
      rw [finishImage_bound hbound hc]
      refine ((h.endLocalImage i reason _).raiseNote _ _ _).move (.reframe _ fun _ j d hj hd => ?_)
      obtain rfl : i = j := by simpa [hbound] using hj
      rw [recordAt_raiseNote, endLocalImage_eq hc] at hd
      exact closeSlot_unbound (recordAt_setChart_same ..) (by rfl) reason hd

theorem Moves.endByTone (h : Moves o s) (reason : CloseReason) (p : Position) (seen : Bool) :
    Moves o (endByTone reason p seen s) := (h.commitTail _).finishImage _ _

theorem Moves.endByFadeOrLimit (h : Moves o s) (reason : CloseReason) : Moves o (endByFadeOrLimit reason s) :=
  (h.commitTail _).finishImage _ _

theorem Moves.joinTail (h : Moves o s) (l : LineInProgress) : Moves o (joinTail l s) := by
  have hroom : Moves o (makeRoom (Machine.bump 0 1 s)) := by
    unfold Machine.makeRoom
    split
    · exact h.bump 0 1
    · split
      · exact ((h.bump 0 1).commitLine _).setTail _
      · exact h.bump 0 1
  exact hroom.setTail _

theorem Moves.closeLine (h : Moves o s) (l : LineInProgress) : Moves o (closeLine l s) := by
  have hjoined := h.joinTail l
  rw [closeLine_eq]
  split
  · exact (hjoined.setLfr (f := { (Machine.joinTail l s).lfr with line := none }) (by rfl)).endByFadeOrLimit _
  · exact hjoined.setLfr (by rfl)

theorem Moves.imageWord (h : Moves o s) (w : HeardWord) : Moves o (imageWord w s) := by
  unfold Machine.imageWord
  split
  · next l _ _ =>
    dsimp only
    have hcut : Moves o (if isBefore w.pos l.next then s else Machine.closeLine l s) := by
      split
      · exact h
      · exact h.closeLine l
    split
    · exact hcut
    · next l' _ =>
      exact (hcut.setLfr (f := { (if isBefore w.pos l.next then s else Machine.closeLine l s).lfr with
        line := some (applyWord w l') }) (by rfl)).commitDue w.pos _
  · exact h

theorem Moves.enterImage (h : Moves o s) (hrun : s.phase = .running) (hs : s.lfr.state ≠ .image) (r : Rate) :
    Moves o (enterImage r s) := by
  cases hlast : s.lfr.pulses.getLast? with
  | none => simpa only [Machine.enterImage, hlast] using h
  | some last =>
    have hentered := (h.reframe hs (enteredFramer last s.now s.lfr)).bindRequested hrun rfl rfl r s.now
    rw [enterImage_eq hlast]
    exact Moves.foldl (fun w _ hu => hu.imageWord w) _ hentered

theorem Moves.takeMiss (h : Moves o s) (hrun : s.phase = .running) (hs : s.lfr.state ≠ .image) (r : Rate) :
    Moves o (takeMiss r s) := by
  unfold Machine.takeMiss
  split
  · exact h.setLfr (by rfl)
  · split
    · exact h.enterImage hrun hs r
    · exact h.reframe hs _

theorem Moves.decideMiss (h : Moves o s) (hrun : s.phase = .running) (w : HeardWord) : Moves o (decideMiss w s) := by
  unfold Machine.decideMiss
  split
  · next hphasing _ =>
    split
    · exact h.takeMiss hrun (by rw [hphasing]; decide) _
    · exact h
  · exact h

theorem Moves.framerWord (h : Moves o s) (hrun : s.phase = .running) (w : HeardWord) : Moves o (framerWord w s) := by
  have hdetected : Moves o (Machine.setLfr (detectPulse w s.now s.lfr) s) := by
    by_cases hs : s.lfr.state = .image
    · have hkept : (detectPulse w s.now s.lfr).state = s.lfr.state ∧ (detectPulse w s.now s.lfr).bound = s.lfr.bound := by
        unfold detectPulse
        dsimp only
        split
        · exact ⟨rfl, rfl⟩
        · rw [judgePulse_image (f := { s.lfr with
            history := pushHistory w s.lfr.history, darkRun := nextDarkRun w s.lfr.darkRun }) hs]
          exact ⟨rfl, rfl⟩
      exact h.setLfr (Prod.ext hkept.1 hkept.2)
    · exact h.reframe hs _
  unfold Machine.framerWord
  dsimp only
  split
  · exact hdetected.imageWord w
  · exact hdetected.decideMiss hrun w

theorem Moves.imageFade (h : Moves o s) (faded : Bool) : Moves o (imageFade faded s) := by
  have hcount (n : Nat) : Moves o (Machine.setLfr { s.lfr with fadedCount := n } s) := h.setLfr (by rfl)
  unfold Machine.imageFade
  split
  · exact hcount 0
  · dsimp only
    split
    · exact hcount _
    · split
      · exact h.endByFadeOrLimit _
      · exact (hcount 0).raiseNote _ _ _
      · exact hcount 0

theorem Moves.imageReport (h : Moves o s) (r : WindowReport) : Moves o (imageReport r s) := by
  unfold Machine.imageReport
  split
  · exact h.endByTone _ _ _
  · exact h.endByTone _ _ _
  · split <;> exact h.endByTone _ _ _
  · exact h.imageFade _

theorem Moves.framerReport (h : Moves o s) (r : WindowReport) : Moves o (framerReport r s) := by
  have hseen : Moves o (Machine.setLfr { s.lfr with startSeen := true } s) := h.setLfr (by rfl)
  unfold Machine.framerReport
  split
  · split
    · exact hseen
    · exact h
  · next hphasing =>
    split
    · exact h.reframe (by rw [hphasing]; decide) _
    · split
      · exact hseen
      · exact h
  · exact h.imageReport r

theorem Moves.windowMarks (h : Moves o s) (b : BootFields) (l : Lcu) : Moves o (windowMarks b l s) := by
  have hfaded : Moves o (countFaded b l.acc s) := by
    unfold countFaded; split
    · exact h.bump _ _
    · exact h
  have hnoted : Moves o (noteReset (tuneWindow b l.acc l).2 (countFaded b l.acc s)) := by
    unfold noteReset; split
    · exact hfaded
    · exact hfaded.raiseNote _ _ _
  unfold Machine.windowMarks markClipped
  split
  · exact (hnoted.bump 14 1).raiseNote _ _ _
  · exact hnoted

theorem Moves.closeWindow (h : Moves o s) (first : Position) : Moves o (closeWindow first s) := by
  have hcleared {u : State} (hu : Moves o u) (l : Lcu) : Moves o (setLcu l u) := hu.aside (by simp [storeView])
  rw [closeWindow_eq]
  exact (hcleared (h.windowMarks _ _) _).framerReport _

theorem Moves.takeWord (h : Moves o s) (hrun : s.phase = .running) (bits : BitVec 16) : Moves o (takeWord bits s) := by
  have hcounted : Moves o (setLcu (lcuWord (handOff bits s.lcu) s.lcu) s) := h.aside (by simp [storeView])
  have hheard := hcounted.framerWord (by simpa using hrun) (handOff bits s.lcu)
  rcases Nat.lt_or_ge (s.lcu.windowCount + 1) 1200 with hc | hc
  · rwa [takeWord_inside hc]
  · rw [takeWord_closing hc]
    exact hheard.closeWindow _

end

/-! ### Heard frames -/

section
variable {o s : State}

/-- A key no slot holds takes the place of the key given up (R89). -/
theorem Moves.withdrawOpen (h : Moves o s) (i : SlotNo) (offset tPeer : Int) {heard : Key} (hk : keyHeld s heard = false) :
    Moves o (withdrawOpen i offset tPeer heard s) := by
  unfold Machine.withdrawOpen
  split
  · exact h
  · next c _ =>
    have hgone : Moves o (setOpenReq i .nothing (withdrawEntries (Entry.isOpenOf i c.key) .remove s)) :=
      h.aside (by simp [storeView])
    have hunheld : keyHeld (setOpenReq i .nothing (withdrawEntries (Entry.isOpenOf i c.key) .remove s)) heard = false :=
      (keyHeld_congr (by simp) heard).trans hk
    have hrekeyed : Moves o (Machine.updateChart i
        (fun c => { c with key := heard, offset := some offset, peerTransition := some tPeer })
        (setOpenReq i .nothing (withdrawEntries (Entry.isOpenOf i c.key) .remove s))) := by
      refine hgone.updateChart fun d hd => ⟨rfl, id, fun k hdk => ?_, fun _ => ?_⟩
      · rcases Chart.answersTo_iff.mp hdk with rfl | hother
        · exact .inr hunheld
        · exact .inl (Chart.answersTo_iff.mpr (.inr hother))
      · exact show d.otherKey ≠ some heard from otherKey_ne_of_unheld hunheld hd
    exact hrekeyed.aside (by simp [storeView])

/-- A key no slot holds becomes the second key of a slot that has none (R90). -/
theorem Moves.recordAlias (h : Moves o s) (i : SlotNo) {heard : Key} (hk : keyHeld s heard = false) :
    Moves o (recordAlias i heard s) := by
  unfold Machine.recordAlias
  split
  · exact h
  · next c hc =>
    split
    · exact h
    · have hnamed : Moves o (setChart i (some { c with otherKey := some heard }) s) := by
        refine h.move (.revise hc ⟨rfl, id, fun k hdk => ?_, fun _ => ?_⟩)
        · rcases Chart.answersTo_iff.mp hdk with rfl | hother
          · exact .inl (answersTo_key c)
          · cases hother
            exact .inr hk
        · exact fun hsame => key_ne_of_unheld hk hc (Option.some.inj hsame).symm
      dsimp only
      split
      · exact (hnamed.raiseNote _ _ _).queueOpen _ _
      · exact hnamed.raiseNote _ _ _

theorem Moves.adoptChart (h : Moves o s) (hrun : s.phase = .running) {heard : Key} (hk : keyHeld s heard = false)
    (tag : Nat) (rate : Rate) (tPeer : Int) : Moves o (adoptChart heard tag rate tPeer s) := by
  unfold Machine.adoptChart
  dsimp only
  split
  · exact h.findSlot.aside (by simp [storeView])
  · next i hi =>
    exact (h.findSlot.move (.install tag rate (some tPeer) (Machine.findSlot s).1.now (by simpa using hrun)
      (recordAt_findSlot hi) (keyHeld_findSlot hk) fun hlocal => by cases hlocal)).aside rfl

theorem Moves.takeOpen (h : Moves o s) (hrun : s.phase = .running) {heard : Key} (hk : keyHeld s heard = false)
    (tag : Nat) (rate : Rate) (tPeer : Int) : Moves o (takeOpen heard tag rate tPeer s) := by
  unfold Machine.takeOpen
  split
  · exact h.withdrawOpen _ _ _ hk
  · split
    · exact h.recordAlias _ hk
    · exact h.adoptChart hrun hk _ _ _

theorem Moves.judgeOpen (h : Moves o s) (hrun : s.phase = .running) (sender : Station) (stamp : Nat) (k : Key)
    (tag rate : Byte) (delay : BitVec 16) : Moves o (judgeOpen sender stamp k tag rate delay s) := by
  unfold Machine.judgeOpen
  split
  · exact h.bump 5 1
  · split
    · exact h.bump 5 1
    · split
      · exact h
      · next hknown => exact h.takeOpen hrun (Bool.eq_false_iff.mpr (not_or.mp hknown).2) _ _ _

theorem announce_eq (n : Nat) (c : Chart) : c.announce n =
    { c with announced := if n = 0 then c.announced else some (max (c.announced.getD 0) n) } := by
  unfold Chart.announce
  split <;> rfl

theorem Moves.judgeClose (h : Moves o s) (k : Key) (length : BitVec 16) (reason : Byte) :
    Moves o (judgeClose k length reason s) := by
  have htold (i : SlotNo) : Moves o (Machine.updateChart i (Chart.announce length.toNat) s) :=
    h.updateChart fun c _ => announce_eq length.toNat c ▸ .of_eq (by rfl)
  unfold Machine.judgeClose
  split
  · exact h.bump 5 1
  · split
    · exact h.bump 5 1
    · split
      · exact h
      · dsimp only
        split
        · split
          · exact (htold _).closeSlot _ _
          · exact htold _
        · exact htold _

theorem Moves.judgeDrop (h : Moves o s) (k : Key) : Moves o (judgeDrop k s) := by
  unfold Machine.judgeDrop
  split
  · exact h
  · split
    · exact h
    · split
      · exact (h.freeSlot _).raiseNote _ _ _
      · exact h

theorem Moves.judgeWant (h : Moves o s) (k : Key) (base : BitVec 16) (mask : BitVec 32) (codes : List (BitVec 4))
    (stations : BitVec 16) : Moves o (judgeWant k base mask codes stations s) := by
  unfold Machine.judgeWant
  split
  · exact h.bump 5 1
  · split
    · exact h
    · next i _ =>
      split
      · exact (h.updateChart (i := i) (f := fun c => { c with used := true }) fun _ _ =>
          .of_eq (by rfl)).aside (by simp [storeView])
      · exact h

theorem Moves.completeLine (h : Moves o s) (i : SlotNo) (r : Receiver) (key : Key) {index : Nat} (hindex : index < 2048)
    (q u : Nat) (bytes : List Byte) : Moves o (completeLine i r key index q u bytes s) := by
  cases hc : recordAt s i with
  | none => simpa only [Machine.completeLine, hc] using h
  | some c =>
    have hended : Moves o (dropAssembly r key index (dropClaims (Claim.isHeardOf c.key index r) s)) :=
      h.aside (by simp [storeView])
    rw [completeLine_eq hc]
    dsimp only
    split
    · have hoffered := hended.mergeOffer i key hindex ⟨decodeRuns bytes, q, u, r, .peerCopy⟩
      exact hoffered.aside (by simp [storeView])
    · exact hended.bump 5 1

theorem Moves.firstFragment (h : Moves o s) (i : SlotNo) {a : Assembly} (ha : a.index < 2048) :
    Moves o (firstFragment i a s) := by
  unfold Machine.firstFragment
  split
  · exact h.completeLine _ _ _ ha _ _ _
  · split <;> exact h.aside (by simp [storeView])

theorem Moves.laterFragment (h : Moves o s) (i : SlotNo) {f : Assembly} (hf : f.index < 2048) (fragment : Nat) :
    Moves o (laterFragment i f fragment s) := by
  unfold Machine.laterFragment
  split
  · exact h.bump 5 1
  · split
    · dsimp only
      split
      · exact h.completeLine _ _ _ hf _ _ _
      · exact h.aside (by simp [storeView])
    · exact h.aside (by simp [storeView])

theorem Moves.judgeLine (h : Moves o s) (sender : Station) (stamp : Nat) (k : Key) (index : BitVec 16)
    (count fragment : BitVec 4) (q : Byte) (u : BitVec 16) (runs : List Byte) :
    Moves o (judgeLine sender stamp k index count fragment q u runs s) := by
  unfold Machine.judgeLine
  split
  · exact h
  · split
    · exact h.bump 5 1
    · next hranges =>
      have hindex : index.toNat < 2048 := by
        simp only [Config.chartLines] at hranges
        omega
      split
      · exact h
      · dsimp only
        split
        · exact h.firstFragment _ hindex
        · exact h.laterFragment _ hindex _

theorem Moves.markPresent (h : Moves o s) (sender : Station) (stamp : Nat) : Moves o (markPresent sender stamp s) := by
  have hpeer {p : Option Peer} : Moves o (setPeer sender p s) := h.aside (by simp [storeView])
  unfold Machine.markPresent
  split
  · exact hpeer
  · dsimp only
    split
    · exact hpeer.setAllDirty
    · exact hpeer

theorem Moves.judgeAsk (h : Moves o s) (sender : Station) (target k : Byte) : Moves o (judgeAsk sender target k s) := by
  unfold Machine.judgeAsk
  split
  · exact h
  · dsimp only
    split
    · exact h.aside (by simp [storeView])
    · next i _ =>
      split
      · exact h
      · exact (h.updateChart (i := i) (f := fun c => { c with used := true }) fun _ _ =>
          .of_eq (by rfl)).aside (by simp [storeView])

theorem Moves.linkRestart (h : Moves o s) (sender : Station) (stamp : Nat) : Moves o (linkRestart sender stamp s) := by
  have hcleared : Moves o (clearExchange (flushQueue s)) := h.aside (by simp [storeView])
  have hforgotten : Moves o { Machine.setAllDirty (clearExchange (flushQueue s)) with
      ssv := { (Machine.setAllDirty (clearExchange (flushQueue s))).ssv with peers := Vector.replicate 16 none } } :=
    hcleared.setAllDirty.aside (by simp [storeView])
  exact (hforgotten.markPresent sender stamp).enqueue _

theorem Moves.judgeRestart (h : Moves o s) (sender : Station) (stamp : Nat) (mask : BitVec 16) :
    Moves o (judgeRestart sender stamp mask s) := by
  unfold Machine.judgeRestart
  split
  · exact h.linkRestart _ _
  · exact h

theorem Moves.dispatch (h : Moves o s) (hrun : s.phase = .running) (sender : Station) (stamp : Nat) (p : Payload) :
    Moves o (dispatch sender stamp p s) := by
  cases p with
  | openF => exact h.judgeOpen hrun _ _ _ _ _ _
  | closeF => exact h.judgeClose _ _ _
  | dropF => exact h.judgeDrop _
  | wantF => exact h.judgeWant _ _ _ _ _
  | lineF => exact h.judgeLine _ _ _ _ _ _ _ _ _
  | restartF => exact h.judgeRestart _ _ _
  | askF => exact h.judgeAsk _ _ _
  | tallyF => exact h.aside (by simp [storeView, Machine.dispatch])
  | claimF => exact h.aside (by simp [storeView, Machine.dispatch])
  | rosterF => exact h.aside (by simp [storeView, Machine.dispatch])
  | describeNullF | describeF | noteF | reportF => exact h

theorem Moves.takeFrame (h : Moves o s) (hrun : s.phase = .running) (sender : Station) (p : Payload) :
    Moves o (takeFrame sender p s) := by
  have hmarked := (h.markPresent sender s.now).bump 4 1
  refine Moves.dispatch ?_ (by simpa using hrun) sender s.now p
  unfold refreshOf
  split
  · exact hmarked.refreshReference _ _
  · exact hmarked

theorem Moves.takeFate (h : Moves o s) (hrun : s.phase = .running) (f : Fate) : Moves o (takeFate f s) := by
  cases f with
  | damaged => exact h.bump 5 1
  | clash => exact (h.bump 5 1).raiseNote _ _ _
  | malformed sender => exact (h.markPresent _ _).bump 5 1
  | heard sender p => exact h.takeFrame hrun sender p

/-- A frame is heard by a running part only (R98, R115). -/
theorem Moves.frameEvent (h : Moves o s) (named : Fate → Bool) (t : Nat) (bits : List Bool) :
    Moves o (frameEvent named t bits s) := by
  have hmoved := h.advance t
  unfold Machine.frameEvent
  dsimp only
  split
  · next hhears =>
    have hrun : s.phase = .running := by
      simp only [hearsFrame, readsLine, Bool.and_eq_true, beq_iff_eq, advance_phase] at hhears
      exact hhears.1.1
    split
    · next f _ =>
      split
      · have hended : Moves o (frameEnded (recessiveAfter bits) (Machine.advance t s)) := hmoved.aside (by simp [storeView])
        exact hended.takeFate (by simpa using hrun) f
      · exact hmoved
    · exact hmoved
  · exact hmoved

/-! ### Completions, timers and boot -/

theorem Moves.loseArbitration (h : Moves o s) (e : Entry) (bit : Nat) : Moves o (loseArbitration e bit s) := by
  unfold Machine.loseArbitration
  dsimp only
  split
  · exact (h.setSlc _).tryBuild
  · exact h.setSlc _

theorem Moves.lineCompletion (h : Moves o s) (key : Key) (index count fragment : Nat) (sent : Bool) :
    Moves o (lineCompletion key index count fragment sent s) := by
  have hdropped : Moves o (dropClaims (Claim.isActiveOf key index) s) := h.aside (by simp [storeView])
  unfold Machine.lineCompletion
  split
  · split
    · dsimp only
      split
      · exact hdropped
      · exact hdropped.updateChart fun _ _ => .of_eq (by rfl)
    · exact h
  · exact h.aside (by simp [storeView])

theorem Moves.ownerCompletion (h : Moves o s) (e : Entry) (stamp : Nat) (sent : Bool) :
    Moves o (ownerCompletion e stamp sent s) := by
  unfold Machine.ownerCompletion
  split
  · exact h.aside (by simp [storeView])
  · exact h.aside (by simp [storeView])
  · exact h.lineCompletion _ _ _ _ _
  · exact h

theorem Moves.ite {p : Prop} [Decidable p] {a b : State} (ha : Moves o a) (hb : Moves o b) :
    Moves o (if p then a else b) := by
  split
  · exact ha
  · exact hb

theorem Moves.completeSend (h : Moves o s) (e : Entry) (outcome : SendOutcome) : Moves o (completeSend e outcome s) := by
  have hcounted : Moves o (countCompletion outcome (lineAfterSend s.ssv.own e outcome s)) := by
    refine h.aside ?_
    cases outcome <;> simp [storeView, countCompletion, lineAfterSend]
  have hsilent {u : State} (hu : Moves o u) : Moves o (enterSilent u) := hu.aside (by simp [storeView])
  exact Moves.ite (hsilent (((hcounted.setSlc _).tryBuild).ownerCompletion e _ _))
    (((hcounted.setSlc _).tryBuild).ownerCompletion e _ _)

theorem Moves.queueTallies (i : SlotNo) (frames : Nat) (blocks : List Nat) {s : State} (h : Moves o s) :
    Moves o (queueTallies i frames blocks s) := by
  induction blocks generalizing frames s with
  | nil => cases frames <;> exact h
  | cons b rest ih =>
    cases frames with
    | zero => exact h
    | succ n =>
      unfold Machine.queueTallies
      split
      · exact h
      · dsimp only
        split
        · exact ih n ((h.enqueue _).updateChart fun _ _ => .of_eq (by rfl))
        · exact h.enqueue _

theorem Moves.tallyRound (h : Moves o s) : Moves o (tallyRound s) := by
  unfold Machine.tallyRound
  split
  · exact h
  · next i _ =>
    have hmoved : Moves o { s with xen := { s.xen with tallyPtr := i + 1 } } := h.aside rfl
    dsimp only
    split
    · exact hmoved
    · exact hmoved.queueTallies _ _ _

theorem Moves.resendOpen (h : Moves o s) (i : SlotNo) : Moves o (resendOpen i s) := by
  unfold Machine.resendOpen
  split
  · exact h
  · split
    · exact h.queueOpen _ _
    · exact h

theorem Moves.wantExpiry (h : Moves o s) (i : SlotNo) (due : Nat) : Moves o (wantExpiry i due s) := by
  have hround {u : State} (hu : Moves o u) : Moves o (wantRound i u) := hu.aside (by simp [storeView])
  exact hround ((h.updateChart fun _ _ => .of_eq (by rfl)).resendOpen i)

/-- The sweep deadline of a slot in SWEEP, which is not bound (R63). -/
theorem Moves.sweepOver (h : Moves o s) {i : SlotNo} {c : Chart} (hc : recordAt s i = some c) (hs : c.state = .sweep) :
    Moves o (sweepOver i s) := by
  unfold Machine.sweepOver
  split
  · refine h.enterHeld (fun d hd hlive => ?_) 2
    obtain rfl : c = d := Option.some.inj (hc.symm.trans hd)
    rw [hs] at hlive
    cases hlive
  · exact h.updateChart fun _ _ => .of_eq (by rfl)

theorem Moves.bootStep (h : Moves o s) : Moves o (bootStep s) := by
  unfold Machine.bootStep freeBootBus
  split
  · exact h
  · split
    · exact h.aside rfl
    · split
      · exact h
      · dsimp only
        split <;> exact h.aside rfl

theorem Moves.takeBootSteps (n : Nat) {s : State} (h : Moves o s) : Moves o (takeBootSteps n s) := by
  induction n generalizing s with
  | zero => exact h
  | succ n ih => exact ih h.bootStep

theorem bootStep_phase (s : State) : (bootStep s).phase = s.phase := by
  unfold bootStep freeBootBus
  split
  · rfl
  · split
    · rfl
    · split
      · rfl
      · dsimp only
        split <;> rfl

theorem takeBootSteps_phase (n : Nat) (s : State) : (takeBootSteps n s).phase = s.phase := by
  induction n generalizing s with
  | zero => rfl
  | succ n ih => exact (ih _).trans (bootStep_phase s)

theorem Moves.idleStep (h : Moves o s) : Moves o (idleStep s) := by
  unfold Machine.idleStep
  split
  · exact h
  · exact h.bootStep
  · exact h.aside rfl

/-- Every command is acts on the store; the cases stand in the commands' order, each split along its guards. -/
theorem Moves.exec {c : Instr} {u : State} (h : Moves o s) (hexec : exec c s = .next u) : Moves o u := by
  have ha (t : Nat) := h.advance t
  cases c <;> cases hexec
  case reset.refl pin =>
    cases pin with
    | low => exact h.move .reset
    | released =>
      dsimp only
      split
      · next hreset => exact h.move (.powerUp (by rw [hreset]; decide) rfl rfl)
      · exact h
  case endOfBoot.refl n =>
    split
    · next hboot =>
      exact (h.takeBootSteps n).move (.powerUp (by rw [takeBootSteps_phase, hboot]; decide) rfl rfl)
    · exact h
  case levelWord.refl t word =>
    dsimp only
    split
    · next htaken => exact (ha t).takeWord htaken.1 _
    · exact ha t
  case wordDiscard.refl t => exact ha t
  case gainDownEnd.refl t | lineIdle.refl t | silentEnd.refl t | rosterExpiry.refl t | minuteExpiry.refl t =>
    split
    · exact (ha t).aside (by simp [storeView])
    · exact ha t
  case phasingTimeout.refl t =>
    split
    · next hover =>
      simp only [phasingOver, Bool.and_eq_true, beq_iff_eq] at hover
      exact (ha t).reframe (by rw [hover.1]; decide) _
    · exact ha t
  case lineBusy.refl t =>
    split
    · exact ha t
    · split <;> exact (ha t).setSlc _
  case frameStart.refl t =>
    split
    · split
      · exact (ha t).setSlc _
      · exact ha t
    · exact ha t
  case arbitrationLost.refl t bit =>
    split
    · split
      · exact (ha t).loseArbitration _ _
      · exact ha t
    · exact ha t
  case arbitrationWon.refl t =>
    split
    · exact (ha t).aside (by simp [storeView])
    · exact ha t
  case sendCompletion.refl t outcome =>
    split
    · split
      · exact (ha t).completeSend _ _
      · exact ha t
    · exact ha t
  case frameDamaged.refl | frameMalformed.refl | clash.refl | openHeard.refl | closeHeard.refl | dropHeard.refl |
      tallyHeard.refl | wantHeard.refl | claimHeard.refl | lineHeard.refl | restartHeard.refl | askHeard.refl |
      rosterHeard.refl | infoHeard.refl => exact h.frameEvent _ _ _
  case tallyExpiry.refl t =>
    split
    · exact Moves.tallyRound ((ha t).aside rfl)
    · exact ha t
  case wantTimerExpiry.refl t i =>
    split
    · split
      · exact (ha t).wantExpiry _ _
      · exact ha t
    · exact ha t
  case sweepDeadline.refl t i =>
    split
    · next hc =>
      split
      · next hover => exact (ha t).sweepOver hc hover.1
      · exact ha t
    · exact ha t
  case silenceClose.refl t i =>
    split
    · split
      · exact (ha t).closeSlot _ _
      · exact ha t
    · exact ha t
  case claimLapse.refl t key index | heardLapse.refl t key index r | reassemblyTimeout.refl t r key index |
      peerAbsent.refl t st =>
    split
    · split
      · exact (ha t).aside (by simp [storeView])
      · exact ha t
    · exact ha t

theorem Moves.step {u : State} (h : Moves o s) (hstep : step s = .next u) : Moves o u := by
  unfold Machine.step at hstep
  split at hstep
  · cases hstep
    exact h.idleStep
  · next rest _ =>
    have htaken : Moves o { s with pending := rest } := h.aside rfl
    exact htaken.exec hstep

end

/-! ## The invariants of the chart store, act by act -/

section
variable {s u : State}

/-- What holds behind every act that it holds before is kept by every step. -/
theorem step_keeps {P : State → Prop} (hP : ∀ {s u}, Move s u → P s → P u) (h : P s) (hstep : step s = .next u) : P u := by
  have hmoves := (Moves.refl s).step hstep
  clear hstep
  unfold Moves at hmoves
  induction hmoves with
  | refl => exact h
  | tail _ m ih => exact hP m ih

theorem recordAt_of_view (h : storeView u = storeView s) (i : SlotNo) : recordAt u i = recordAt s i :=
  recordAt_congr (congrArg StoreView.slots h) i

theorem recordAt_reset (i : SlotNo) : recordAt (enterReset s) i = none := by
  simp [recordAt, enterReset, Cst.reset]

theorem recordAt_of_cst (h : u.cst = s.cst) (i : SlotNo) : recordAt u i = recordAt s i :=
  recordAt_congr (congrArg Cst.slots h) i

/-- The record a store writes, in its slot. -/
theorem recordAt_stored {i j : SlotNo} {d : Chart} {old : Option LineEntry} {copy : Copy} {page : Nat}
    {rest : List Nat} : recordAt (storedCopy i d old copy page rest s) j = if i = j then some d else recordAt s j := by
  rw [← recordAt_setChart]
  refine recordAt_congr ?_ j
  unfold storedCopy
  dsimp only
  split <;> rfl

/-! ### At most one slot is bound (R55, R59) -/

/-- A record put in a slot keeps the bindings when it is bound rightly there. -/
theorem Bindings.put (h : Bindings s) {v : State} (hlfr : v.lfr = s.lfr) {i : SlotNo} {c : Option Chart}
    (hv : ∀ j, recordAt v j = if i = j then c else recordAt s j) (hc : ∀ d, c = some d → RightlyBound s i d) :
    Bindings v := by
  intro j d hd
  rw [hv] at hd
  rw [hlfr]
  split at hd
  · next hij => exact hij ▸ hc d hd
  · exact h j d hd

theorem storedCopy_lfr {i : SlotNo} {d : Chart} {old : Option LineEntry} {copy : Copy} {page : Nat} {rest : List Nat} :
    (storedCopy i d old copy page rest s).lfr = s.lfr := by
  unfold storedCopy
  dsimp only
  split <;> rfl

theorem Move.bindings (m : Move s u) (h : Bindings s) : Bindings u := by
  cases m with
  | aside hv =>
    intro i c hc
    rw [show u.lfr.state = s.lfr.state from congrArg StoreView.framer hv,
      show u.lfr.bound = s.lfr.bound from congrArg StoreView.bound hv]
    exact h i c ((recordAt_of_view hv i).symm.trans hc)
  | reframe f hfree =>
    intro i c hc hb
    obtain ⟨_, himage, hbound⟩ := h i c hc hb
    exact absurd hb (by simp [hfree himage i c hbound hc])
  | revise hc hr => exact h.put rfl (recordAt_setChart s _ · _) fun d hd => Option.some.inj hd ▸ hr.bound (h _ _ hc)
  | install tag rate tPeer now hrun hfree hkey hbound =>
    exact h.put rfl (recordAt_setChart s _ · _) fun d hd => by cases hd; exact fun hb => ⟨rfl, hbound hb⟩
  | store hc hj hfree hbest =>
    have hkept := h _ _ hc
    exact h.put storedCopy_lfr (fun j => recordAt_stored) fun d hd => by cases hd; exact hkept
  | release hc => exact h.put rfl (recordAt_setChart (returnPages _ s) _ · _) fun d hd => by cases hd
  | reset => exact fun i c hc => by rw [recordAt_reset] at hc; cases hc
  | powerUp _ hcst hlfr => exact fun i c hc => hlfr ▸ h i c ((recordAt_of_cst hcst i).symm.trans hc)

/-! ### The share keys of the slots are apart (R55, R81) -/

/-- A record put in a slot keeps the keys apart when its keys are apart and reach no other slot. -/
theorem KeysDistinct.put (h : KeysDistinct s) {v : State} {i : SlotNo} {d : Chart}
    (hv : ∀ j, recordAt v j = if i = j then some d else recordAt s j) (hapart : d.otherKey ≠ some d.key)
    (halone : ∀ j c k, recordAt s j = some c → c.answersTo k = true → d.answersTo k = true → i = j) : KeysDistinct v := by
  obtain ⟨hown, hother⟩ := h
  refine ⟨fun j c hc => ?_, fun a b ca cb k ha hb hka hkb => ?_⟩
  · rw [hv] at hc
    split at hc
    · cases hc
      exact hapart
    · exact hown j c hc
  · rw [hv] at ha hb
    split at ha <;> split at hb
    · next hia hib => exact hia.symm.trans hib
    · next hia _ => cases ha; exact hia ▸ halone b cb k hb hkb hka
    · next _ hib => cases hb; exact hib ▸ (halone a ca k ha hka hkb).symm
    · exact hother a b ca cb k ha hb hka hkb

/-- Keys are apart where every record was there before. -/
theorem KeysDistinct.of_records (h : KeysDistinct s) (hrecords : ∀ i c, recordAt u i = some c → recordAt s i = some c) :
    KeysDistinct u :=
  ⟨fun i c hc => h.1 i c (hrecords i c hc), fun i j ci cj k hi hj => h.2 i j ci cj k (hrecords i ci hi) (hrecords j cj hj)⟩

theorem Move.keysDistinct (m : Move s u) (h : KeysDistinct s) : KeysDistinct u := by
  cases m with
  | aside hv => exact h.of_records fun i c hc => (recordAt_of_view hv i).symm.trans hc
  | reframe f _ => exact h
  | revise hc hr =>
    refine h.put (recordAt_setChart s _ · _) (hr.apart (h.1 _ _ hc)) fun j e k he hek hdk => ?_
    rcases hr.keys k hdk with hck | hunheld
    · exact h.2 _ j _ e k hc he hck hek
    · exact absurd hek (by simp [keyHeld_eq_false_iff.mp hunheld j e he])
  | install tag rate tPeer now hrun hfree hkey hbound =>
    refine h.put (recordAt_setChart s _ · _) (fun hn => by cases hn) fun j e k he hek hdk => ?_
    rcases Chart.answersTo_iff.mp hdk with hk | hn
    · cases hk
      exact absurd hek (Bool.eq_false_iff.mp (keyHeld_eq_false_iff.mp hkey j e he))
    · cases hn
  | store hc hj hfree hbest =>
    have hapart := h.1 _ _ hc
    exact h.put (fun j => recordAt_stored) hapart fun j e k he hek hdk => h.2 _ j _ e k hc he hdk hek
  | release hc =>
    refine h.of_records fun i d hd => ?_
    rw [recordAt_setChart] at hd
    split at hd
    · cases hd
    · exact hd
  | reset => exact h.of_records fun i c hc => by rw [recordAt_reset] at hc; cases hc
  | powerUp _ hcst _ => exact h.of_records fun i c hc => (recordAt_of_cst hcst i).symm.trans hc

end

/-- Settles O57: every act a step is made of keeps the bindings. -/
theorem stepKeepsBinding : Obligations.StepKeepsBinding := fun _ _ h hstep => step_keeps Move.bindings h hstep

/-- Settles O58: every act a step is made of keeps the keys apart. -/
theorem stepKeepsKeysDistinct : Obligations.StepKeepsKeysDistinct :=
  fun _ _ h hstep => step_keeps Move.keysDistinct h hstep

/-! ### Every page is accounted for (R53, R65, R66) -/

/-- A rising map after a set lists what it listed before and the new entry, less the entry the set replaced. -/
theorem mapSet_perm {α : Type} (i : Nat) (a : α) {m : List (Nat × α)} (h : rising m) :
    (mapSet i a m ++ ((mapGet m i).map (Prod.mk i)).toList).Perm ((i, a) :: m) := by
  induction m with
  | nil => exact List.Perm.refl _
  | cons e rest ih =>
    obtain ⟨k, b⟩ := e
    obtain ⟨hbelow, hrest⟩ := rising_cons.mp h
    unfold mapSet
    split
    · next hik =>
      have hnone : mapGet ((k, b) :: rest) i = none :=
        mapGet_eq_none_of_lt _ fun e he => (List.mem_cons.mp he).elim (· ▸ hik) fun he => hik.trans (hbelow e he)
      rw [hnone]
      simp
    · split
      · next hik =>
        subst hik
        simp only [mapGet, if_true, Option.map_some, Option.toList_some, List.cons_append]
        exact ((List.perm_append_singleton _ rest)).cons _
      · next hik =>
        simp only [mapGet, if_neg (Ne.symm hik), List.cons_append]
        exact ((ih hrest).cons _).trans (List.Perm.swap ..)

/-- The highest index of a rising map after a set (R66). -/
theorem mapSet_getLast? {α : Type} (i : Nat) (a : α) {m : List (Nat × α)} (h : rising m) :
    (mapSet i a m).getLast?.map Prod.fst = some (max ((m.getLast?.map Prod.fst).getD 0) i) := by
  induction m with
  | nil => simp [mapSet]
  | cons e rest ih =>
    obtain ⟨k, b⟩ := e
    obtain ⟨hbelow, hrest⟩ := rising_cons.mp h
    unfold mapSet
    split
    · next hik =>
      rw [List.getLast?_cons_cons, List.getLast?_cons]
      cases hlast : rest.getLast? with
      | none => simp [hik.le]
      | some e => simpa using (hik.trans (hbelow e (List.mem_of_getLast? hlast))).le
    · split
      · next hik =>
        subst hik
        rw [List.getLast?_cons, List.getLast?_cons]
        cases hlast : rest.getLast? with
        | none => simp
        | some e => simpa using (hbelow e (List.mem_of_getLast? hlast)).le
      · next hlt hne =>
        have hki : k < i := by omega
        have hset : (mapSet i a rest).getLast? ≠ none := fun hn => by simpa [hn] using ih hrest
        obtain ⟨d, hd⟩ := Option.ne_none_iff_exists'.mp hset
        have hdmax := ih hrest
        rw [hd] at hdmax
        rw [List.getLast?_cons, List.getLast?_cons, hd]
        cases hlast : rest.getLast? with
        | none => simpa [hlast, hki.le] using hdmax
        | some e => simpa [hlast] using hdmax

section
variable {s u : State} {i : SlotNo} {d : Chart} {old : Option LineEntry} {copy : Copy} {page : Nat} {rest : List Nat}

theorem storedCopy_phase : (storedCopy i d old copy page rest s).phase = s.phase := by
  unfold storedCopy
  dsimp only
  split <;> rfl

theorem storedCopy_pages :
    (storedCopy i d old copy page rest s).cst.pages = Memory.write s.cst.pages page copy.pixels := by
  unfold storedCopy
  dsimp only
  split <;> rfl

theorem storedCopy_free : (storedCopy i d old copy page rest s).cst.free = rest ++ (old.map (·.page)).toList := by
  unfold storedCopy
  dsimp only
  split <;> rfl

end

section
variable {s u : State}

/-- The pages a slot holds; a FREE slot holds none. -/
def pagesOf (c : Option Chart) : List Nat := (c.map Chart.pages).getD []

theorem heldPages_eq : heldPages s = allSlots.flatMap (fun i => pagesOf (recordAt s i)) := by
  unfold heldPages
  refine congrArg (allSlots.flatMap ·) (funext fun i => ?_)
  cases recordAt s i <;> rfl

/-- A record put in a slot changes the held pages by that slot's alone. -/
theorem heldPages_put {v : State} {i : SlotNo} {c : Option Chart}
    (hv : ∀ j, recordAt v j = if i = j then c else recordAt s j) :
    (heldPages v ++ pagesOf (recordAt s i)).Perm (heldPages s ++ pagesOf c) := by
  have hsplit : allSlots.Perm (i :: allSlots.erase i) := List.perm_cons_erase (mem_allSlots i)
  have hnodup : i ∉ allSlots.erase i := (by decide : ∀ i : SlotNo, i ∉ allSlots.erase i) i
  have hrest : (allSlots.erase i).flatMap (fun j => pagesOf (recordAt v j)) =
      (allSlots.erase i).flatMap (fun j => pagesOf (recordAt s j)) :=
    List.flatMap_congr fun j hj => by rw [hv, if_neg fun (hij : i = j) => hnodup (hij ▸ hj)]
  have hpagesv := hsplit.flatMap_right (fun j => pagesOf (recordAt v j))
  have hpagess := hsplit.flatMap_right (fun j => pagesOf (recordAt s j))
  rw [← heldPages_eq, List.flatMap_cons] at hpagesv hpagess
  rw [hrest, hv, if_pos rfl] at hpagesv
  rw [List.perm_iff_count] at hpagesv hpagess ⊢
  intro page
  have hcountv := hpagesv page
  have hcounts := hpagess page
  simp only [List.count_append] at hcountv hcounts ⊢
  omega

/-- A record with sound lines, put in a slot, keeps the account when free list and slot exchange pages. -/
theorem Stored.put (h : Stored s) {v : State} {i : SlotNo} {c : Option Chart}
    (hv : ∀ j, recordAt v j = if i = j then c else recordAt s j) (hphase : v.phase = s.phase)
    (hboot : v.ssv.boot = s.ssv.boot) (hpool : Memory.wf v.cst.pages)
    (hfree : (v.cst.free ++ pagesOf c).Perm (s.cst.free ++ pagesOf (recordAt s i)))
    (hsound : ∀ d, c = some d → d.Sound s.ssv.boot.poorFloor) (hrun : s.phase ≠ .running → c = none) : Stored v where
  pool := hpool
  pages := by
    refine List.Perm.trans ?_ h.pages
    have hheld := heldPages_put hv
    rw [List.perm_iff_count] at hheld hfree ⊢
    intro page
    have hcountheld := hheld page
    have hcountfree := hfree page
    simp only [List.count_append] at hcountheld hcountfree ⊢
    omega
  charts j d hd := by
    rw [hv] at hd
    rw [hboot]
    split at hd
    · exact hsound d hd
    · exact h.charts j d hd
  boot hp j := by
    rw [hphase] at hp
    rw [hv, hrun hp, h.boot hp j, ite_self]

/-- The account stands where the store is as it was. -/
theorem Stored.of_store (h : Stored s) (hrecords : ∀ i, recordAt u i = recordAt s i) (hpages : u.cst.pages = s.cst.pages)
    (hfree : u.cst.free = s.cst.free) (hsound : ∀ i c, recordAt s i = some c → c.Sound u.ssv.boot.poorFloor)
    (hboot : u.phase ≠ .running → ∀ i, recordAt s i = none) : Stored u where
  pool := hpages ▸ h.pool
  pages := by
    rw [hfree, heldPages_eq, funext hrecords, ← heldPages_eq]
    exact h.pages
  charts i c hc := hsound i c ((hrecords i).symm.trans hc)
  boot hp i := (hrecords i).trans (hboot hp i)

theorem Chart.pages_of_lines {c d : Chart} (h : d.lines = c.lines) : d.pages = c.pages :=
  congrArg (List.map _) (Chart.lines_eq_iff.mp h).1

theorem Chart.Sound.of_lines {floor : Nat} {c d : Chart} (h : c.Sound floor) (hl : d.lines = c.lines) : d.Sound floor := by
  obtain ⟨hmap, hheld, hpoor, hhighest⟩ := Chart.lines_eq_iff.mp hl
  exact ⟨hmap ▸ h.rising, hmap ▸ h.index, hmap ▸ h.code, by rw [hheld, hmap, h.held], by rw [hpoor, hmap, h.poor],
    by rw [hhighest, hmap, h.highest]⟩

/-- A stored copy's page joins the slot's, and the replaced entry's leaves them (R73). -/
theorem Chart.store_pages {floor j page : Nat} {copy : Copy} {c : Chart} (h : rising c.lineMap) :
    ((c.store floor j page copy).pages ++ ((mapGet c.lineMap j).map (·.page)).toList).Perm (page :: c.pages) := by
  have hperm := (mapSet_perm j (entryOf page copy) h).map (fun e => e.2.page)
  rw [List.map_append] at hperm
  cases hold : mapGet c.lineMap j <;> rw [hold] at hperm <;> exact hperm

/-- A store keeps map and summaries in agreement (R65, R66). -/
theorem Chart.Sound.store {floor j page : Nat} {copy : Copy} {c : Chart} (h : c.Sound floor) (hj : j < 2048)
    (hbest : ∀ e, mapGet c.lineMap j = some e → e.q ≤ copy.q) : (c.store floor j page copy).Sound floor := by
  have hperm := mapSet_perm j (entryOf page copy) h.rising
  exact {
    rising := rising_mapSet _ _ _ h.rising
    index := fun e he => (mem_mapSet he).elim (fun he => he ▸ hj) (h.index e)
    code := fun e he => (mem_mapSet he).elim (fun he => he ▸ rfl) (h.code e)
    held := by
      have hlength := hperm.length_eq
      have hheld := h.held
      simp only [Chart.store]
      cases hold : mapGet c.lineMap j <;> simp [hold] at hlength ⊢ <;> omega
    poor := by
      have hcount := hperm.countP_eq (fun e => isPoor floor e.2.q)
      have hpoor := h.poor
      simp only [Chart.store]
      cases hold : mapGet c.lineMap j with
      | none =>
        simp only [hold, Option.map_none, Option.toList_none, List.append_nil, List.countP_cons, entryOf] at hcount ⊢
        cases hnow : isPoor floor copy.q <;> simp [hnow] at hcount ⊢ <;> omega
      | some e =>
        have hle := hbest e hold
        simp only [hold, Option.map_some, Option.toList_some, List.countP_append, List.countP_cons, List.countP_nil,
          entryOf, isPoor, decide_eq_true_eq] at hcount ⊢
        simp only [isPoor] at hpoor
        by_cases hwas : e.q < floor <;> by_cases hnow : copy.q < floor <;> simp [hwas, hnow] at hcount ⊢ <;> omega
    highest := by
      show some _ = (mapSet j (entryOf page copy) c.lineMap).getLast?.map Prod.fst
      rw [mapSet_getLast? j _ h.rising, h.highest] }

theorem freshChart_sound {floor tag now : Nat} {key : Key} {rate : Rate} {tLocal : Option Nat} {tPeer : Option Int} :
    (freshChart key tag rate tLocal tPeer now).Sound floor := by
  constructor <;> simp [freshChart, rising]

theorem stored_reset {v : State} (hpool : Memory.wf v.cst.pages) (hfree : v.cst.free = Cst.reset.free)
    (hslots : v.cst.slots = Cst.reset.slots) : Stored v := by
  have hnone : ∀ i, recordAt v i = none := fun i => by simp [recordAt, hslots, Cst.reset]
  refine ⟨hpool, ?_, fun i c hc => absurd hc (by simp [hnone i]), fun _ => hnone⟩
  have hheld : heldPages v = [] := by simp [heldPages_eq, hnone, pagesOf]
  rw [hheld, hfree, List.append_nil, List.range_eq_range']
  exact List.Perm.refl _

theorem Move.stored (m : Move s u) (h : Stored s) : Stored u := by
  cases m with
  | aside hv =>
    have hboot : u.ssv.boot = s.ssv.boot := congrArg StoreView.boot hv
    have hphase : u.phase = s.phase := congrArg StoreView.phase hv
    exact h.of_store (recordAt_of_view hv) (congrArg StoreView.pages hv) (congrArg StoreView.free hv)
      (hboot ▸ h.charts) (hphase ▸ h.boot)
  | reframe f _ => exact h.of_store (fun _ => rfl) rfl rfl h.charts h.boot
  | revise hc hr =>
    refine h.put (recordAt_setChart s _ · _) rfl rfl h.pool ?_ (fun d hd => ?_) fun hp => ?_
    · rw [hc]
      exact List.Perm.of_eq (congrArg (_ ++ ·) (Chart.pages_of_lines hr.lines))
    · cases hd
      exact (h.charts _ _ hc).of_lines hr.lines
    · exact absurd hc (by simp [h.boot hp])
  | install tag rate tPeer now hrun hfree hkey hbound =>
    refine h.put (recordAt_setChart s _ · _) rfl rfl h.pool ?_ (fun d hd => ?_) fun hp => absurd hrun hp
    · rw [hfree]
      exact List.Perm.refl _
    · cases hd
      exact freshChart_sound
  | @store i c j page copy rest hc hj hfree hbest =>
    have hsound := h.charts _ _ hc
    refine h.put (fun j => recordAt_stored) storedCopy_phase (storedCopy_boot ..) ?_ ?_ (fun d hd => ?_) fun hp => ?_
    · rw [storedCopy_pages]
      exact write_keeps_wf _ _ _ h.pool
    · have hpages := Chart.store_pages (floor := s.ssv.boot.poorFloor) (j := j) (page := page) (copy := copy) hsound.rising
      rw [storedCopy_free, hc, hfree]
      rw [List.perm_iff_count] at hpages ⊢
      intro p
      have hcount := hpages p
      simp only [pagesOf, Option.map_some, Option.getD_some, List.count_append, List.count_cons] at hcount ⊢
      omega
    · cases hd
      exact hsound.store hj hbest
    · exact absurd hc (by simp [h.boot hp])
  | release hc =>
    refine h.put (recordAt_setChart (returnPages _ s) _ · _) rfl rfl h.pool ?_ (fun d hd => by cases hd) fun _ => rfl
    rw [hc]
    exact List.Perm.of_eq (List.append_nil _)
  | reset => exact stored_reset h.pool rfl rfl
  | powerUp hp hcst _ =>
    have hfree := h.boot hp
    exact h.of_store (recordAt_of_cst hcst) (congrArg Cst.pages hcst) (congrArg Cst.free hcst)
      (fun i c hc => absurd hc (by simp [hfree i])) fun _ => hfree

end

/-- Settles O56: every act a step is made of exchanges pages between free list and one slot, or none. -/
theorem stepAccountsForPages : Obligations.StepAccountsForPages := fun _ _ h hstep => step_keeps Move.stored h hstep

/-! ### The machine after reset (R53, R115, R117, R169) -/

theorem recordAt_resetState (i : SlotNo) : recordAt State.reset i = none := recordAt_reset (s := State.reset) i

theorem reset_fits : Fits State.reset where
  framer := Lfr.reset_sized
  queue := ⟨Nat.zero_le _, Nat.zero_le _⟩
  claims := Nat.zero_le _
  assemblies := Nat.zero_le _
  counters i := by simp [State.reset, Ssv.reset]
  pages := fun _ hp => (by cases hp)
  views i r := by simpa [State.reset, Xen.reset] using viewFits_empty r

theorem reset_wired : Wired State.reset.slc where
  wire := rfl
  sle := by decide
  silent := fun hs => absurd rfl hs
  run := by decide

theorem reset_tracked : Tracked State.reset where
  index _ hc := by cases hc
  keys _ hc := by cases hc
  own := .nil
  heard := .nil
  room := Nat.zero_le _
  once := .nil
  active _ hl := by cases hl
  fragments _ he := by cases he
  order := .nil
  oldest := .nil
  waiting _ he := by cases he

/-- Settles O53: after reset every slot is FREE and every list empty. -/
theorem resetMeetsInvariants : Obligations.ResetMeetsInvariants := by
  have hfree (i : SlotNo) (c : Chart) : recordAt State.reset i ≠ some c := by simp [recordAt_resetState]
  obtain ⟨hbounded, hviewed⟩ := fits_iff.mp reset_fits
  exact ⟨hbounded, lcuReset_conditioned, stored_reset reset_pool_wf rfl rfl, fun i c hc => absurd hc (hfree i c),
    ⟨fun i c hc => absurd hc (hfree i c), fun i _ ci _ _ hi => absurd hi (hfree i ci)⟩, reset_wired,
    fun _ => ⟨rfl, rfl, rfl⟩, hviewed, reset_tracked⟩

/-! ### The end of a sweep and of a silent slot (R61, R63, R64, R95) -/

/-- Settles O50: at its time the deadline, or the silence, is reached, and the slot's end is that of R63 or a close's. -/
theorem sweepAndSilenceEnd : Obligations.SweepAndSilenceEnd := by
  refine ⟨fun s t d i c hrun hc hs hd hdue => ?sweep, fun s t i c hrun hc hs hb hdue => ?silence⟩
  all_goals
    intro moved
    have hadvanced : advance t s = moved := advance_running s t hrun
    have hmoved : recordAt moved i = some c := hc
  case sweep =>
    have hover : exec (.sweepDeadline t i) s = .next (sweepOver i moved) := by
      show execSweepDeadline t i s = _
      simp only [execSweepDeadline, hadvanced, hmoved]
      exact congrArg _ (if_pos ⟨hs, reached_advanced hrun hd hdue⟩)
    rw [hover]
    refine ⟨fun hstop => congrArg _ ?_, fun hkeep => congrArg _ ?_⟩
    · have hboot : moved.ssv.boot.sweepEnd = .stop := hstop
      simp only [sweepOver, hboot]
      exact enterHeld_eq hmoved 2
    · have hboot : moved.ssv.boot.sweepEnd = .keep := hkeep
      simp only [sweepOver, hboot]
      exact updateChart_eq hmoved _
  case silence =>
    have hover : silenceOver c moved = true := by
      simp only [silenceOver, isDue, hs, hb, Bool.and_eq_true, beq_iff_eq, decide_eq_true_eq, Bool.not_false, true_and]
      exact ⟨hrun, hdue⟩
    have hcloses : exec (.silenceClose t i) s = .next (closeSlot i .silence moved) := by
      show execSilenceClose t i s = _
      simp only [execSilenceClose, hadvanced, hmoved, hover, if_true]
    refine ⟨hcloses, fun hsecs => hcloses.trans (congrArg _ ?_)⟩
    rw [closeSlot_atOnce hmoved hs hsecs]
    simp only [Chart.enteredHeld, Chart.closedBy, hb]

/-! ### A heard frame about a chart (R76, R88, R94) -/

section
variable {s : State} {sender : Station}

theorem exec_openHeard (h : hears s sender) (t : Nat) (k : Key) (tag rate : Byte) (delay : BitVec 16) :
    let p := Payload.openF k tag rate delay
    exec (.openHeard t sender (frameTail sender p)) s =
      .next (judgeOpen sender (stampAt t s) k tag rate delay (heardBy t sender p s)) := by
  have hread : readData .openK (Payload.openF k tag rate delay).bytes = some (.openF k tag rate delay) := by
    simp only [Payload.bytes, keyBytes, bytes16, List.cons_append, List.nil_append, readData, be16_bytes]
  exact congrArg Host.Outcome.next (hearFrame_frame t sender (.openF k tag rate delay) s h rfl hread)

theorem exec_closeHeard (h : hears s sender) (t : Nat) (k : Key) (len : BitVec 16) (reason : Byte) :
    let p := Payload.closeF k len reason
    exec (.closeHeard t sender (frameTail sender p)) s = .next (judgeClose k len reason (heardBy t sender p s)) := by
  have hread : readData .closeK (Payload.closeF k len reason).bytes = some (.closeF k len reason) := by
    simp only [Payload.bytes, keyBytes, bytes16, List.cons_append, List.nil_append, readData, be16_bytes]
  exact congrArg Host.Outcome.next (hearFrame_frame t sender (.closeF k len reason) s h rfl hread)

theorem exec_dropHeard (h : hears s sender) (t : Nat) (k : Key) :
    let p := Payload.dropF k
    exec (.dropHeard t sender (frameTail sender p)) s = .next (judgeDrop k (heardBy t sender p s)) :=
  congrArg Host.Outcome.next (hearFrame_frame t sender (.dropF k) s h rfl rfl)

theorem slotOf_heardBy (t : Nat) (p : Payload) (k : Key) : slotOf (heardBy t sender p s) k = slotOf s k :=
  slotOf_of_keysAt (keysAt_heardBy t sender p) k

end

/-! ### A heard CLOSE (R61 to R64, R94, R96) -/

theorem reasonOfCode_eq_none_iff {n : Nat} : reasonOfCode n = none ↔ n = 0 ∨ 5 < n := by
  rcases n with _ | _ | _ | _ | _ | _ | n <;> simp [reasonOfCode]

section
variable {s : State} {i : SlotNo} {c : Chart} {k : Key} {len : BitVec 16} {reason : Byte} {r : CloseReason}

theorem judgeClose_malformed (h : reason.toNat = 0 ∨ 5 < reason.toNat ∨ 2048 < len.toNat) :
    judgeClose k len reason s = bump 5 1 s := by
  unfold judgeClose
  split
  · rfl
  · next r hr =>
    have hknown : ¬ (reason.toNat = 0 ∨ 5 < reason.toNat) := fun hn => by simp [reasonOfCode_eq_none_iff.mpr hn] at hr
    exact if_pos (by simp only [Config.chartLines]; tauto)

theorem judgeClose_unreached (hr : reasonOfCode reason.toNat = some r) (hlen : len.toNat ≤ 2048)
    (hslot : slotOf s k = none) : judgeClose k len reason s = s := by
  simp only [judgeClose, hr, hslot]
  exact if_neg hlen.not_gt

theorem judgeClose_reached (hr : reasonOfCode reason.toNat = some r) (hlen : len.toNat ≤ 2048)
    (hslot : slotOf s k = some i) (hc : recordAt s i = some c) : judgeClose k len reason s =
      if c.state = .live ∧ c.bound = false then closeSlot i r (setChart i (some (c.announce len.toNat)) s)
      else setChart i (some (c.announce len.toNat)) s := by
  simp only [judgeClose, hr, hslot, updateChart_eq hc, recordAt_setChart_same]
  rw [if_neg (by simpa only [Config.chartLines] using hlen.not_gt), announce_eq]

theorem sweptBy_complete (floor deadline : Nat) : (c.sweptBy r deadline).complete floor = c.complete floor := rfl

/-- What a close leaves in SWEEP until its deadline (R61, R62). -/
theorem closeSlot_stays (h : recordAt s i = some c) (hs : c.state = .live) (hsecs : s.ssv.boot.sweepSeconds ≠ 0)
    (hcomplete : c.complete s.ssv.boot.poorFloor ≠ true) : closeSlot i r s =
      raiseNote 4 (some c.key) (BitVec.ofNat 16 (reasonCode r))
        (setChart i (some (c.sweptBy r (s.now + s.ssv.boot.sweepSeconds * 1000))) (setOpenReq i .nothing s)) := by
  rw [closeSlot_sweeps h hs hsecs]
  refine testComplete_stays ((recordAt_raiseNote ..).trans (recordAt_setChart_same ..)) fun hdone => hcomplete ?_
  simpa [sweptBy_complete] using hdone.2

/-- A slot a close finds complete passes through SWEEP to HELD (R61, R64, R69). -/
theorem closeSlot_completes (h : recordAt s i = some c) (hs : c.state = .live) (hsecs : s.ssv.boot.sweepSeconds ≠ 0)
    (hcomplete : c.complete s.ssv.boot.poorFloor = true) : closeSlot i r s =
      let swept := c.sweptBy r (s.now + s.ssv.boot.sweepSeconds * 1000)
      raiseNote 5 (some c.key) 1 (setChart i (some swept.enteredHeld)
        (raiseNote 4 (some c.key) (BitVec.ofNat 16 (reasonCode r))
          (setChart i (some swept) (setOpenReq i .nothing s)))) := by
  rw [closeSlot_sweeps h hs hsecs]
  exact testComplete_closes ((recordAt_raiseNote ..).trans (recordAt_setChart_same ..)) rfl
    (by simpa [sweptBy_complete] using hcomplete)

end

/-- Settles O37, by what a close does to a slot that is complete and to one that is not. -/
theorem closeHeard : Obligations.CloseHeard := by
  constructor
  · intro s t sender k len reason hh p b
    rw [exec_closeHeard hh]
    refine ⟨fun hbad => congrArg _ (judgeClose_malformed hbad), fun r hr hlen => ⟨fun hslot => congrArg _ ?_, ?_⟩⟩
    · exact judgeClose_unreached hr hlen ((slotOf_heardBy t p k).trans hslot)
    · intro i c hslot hc told
      have hjudged := judgeClose_reached hr hlen ((slotOf_heardBy t p k).trans hslot) hc
      exact ⟨fun hs hb => congrArg _ (hjudged.trans (if_pos ⟨hs, hb⟩)),
        fun hkept => congrArg _ (hjudged.trans (if_neg fun hcloses =>
          hkept.elim (· hcloses.1) fun hb => Bool.false_ne_true (hcloses.2.symm.trans hb)))⟩
  · intro s i r c hc secs length complete closed held swept noted
    have hcomplete : c.complete s.ssv.boot.poorFloor = true ↔ complete := Chart.complete_iff _ (Chart.length_eq c)
    exact ⟨fun hs => closeSlot_unlive hc hs r, fun hs hsecs => closeSlot_atOnce hc hs hsecs r,
      fun hs hsecs hn => closeSlot_stays hc hs hsecs (mt hcomplete.mp hn),
      fun hs hsecs hd => closeSlot_completes hc hs hsecs (hcomplete.mpr hd)⟩

/-! ### A heard DROP, and a slot freed (R76, R77, R134, R154) -/

section
variable {s : State} {i : SlotNo} {c : Chart} {k : Key}

theorem judgeDrop_unreached (hslot : slotOf s k = none) : judgeDrop k s = s := by
  simp only [judgeDrop, hslot]

theorem judgeDrop_reached (hslot : slotOf s k = some i) (hc : recordAt s i = some c) :
    judgeDrop k s = if c.state = .held then raiseNote 6 (some c.key) 2 (freeSlot i s) else s := by
  simp only [judgeDrop, hslot, hc]

/-- All that goes with a freed slot, in one act (R77, R104, R134, R154). -/
theorem freeSlot_eq (h : recordAt s i = some c) : freeSlot i s = retryBuild s { s with
    cst := (setChart i none (returnPages c.pages s)).cst
    xen := { s.xen with
      views := s.xen.views.set i .empty
      openReq := s.xen.openReq.set i .nothing
      claims := s.xen.claims.filter (fun d => !c.answersTo d.key)
      build := s.xen.build.filter (fun l => !c.answersTo l.key)
      assemblies := s.xen.assemblies.filter (fun a => !c.answersTo a.key) }
    slc := { s.slc with queue := requestEntries (leavesWithSlot i c) .remove s.slc.queue } } := by
  simp only [freeSlot, h, setQueue, setBuild, setAssemblies, dropClaims, setClaims, setOpenReq, setView, setChart,
    returnPages, Chart.pages]
  rfl

end

/-- Settles O38, on the state the hearing leaves, where keys reach the slots they did. -/
theorem dropFreesHeldSlot : Obligations.DropFreesHeldSlot := by
  constructor
  · intro s t sender k hh p b
    have hreaches : slotOf b k = slotOf s k := slotOf_heardBy t p k
    rw [exec_dropHeard hh]
    refine ⟨fun hslot => congrArg _ (judgeDrop_unreached (hreaches.trans hslot)), fun i c hslot hc => ?_⟩
    have hjudged := judgeDrop_reached (hreaches.trans hslot) hc
    exact ⟨fun hs => congrArg _ (hjudged.trans (if_neg hs)), fun hs => congrArg _ (hjudged.trans (if_pos hs))⟩
  · intro s i c hc pages free goes
    have hgoes : goes = leavesWithSlot i c := funext fun e => by
      cases e with
      | mk payload => cases payload <;> rfl
    rw [freeSlot_eq hc, hgoes]
    rfl

/-! ### The pass round by round (R57) -/

section
variable {s u v : State} {n : Nat} {c : Chart}

/-- A record behind a visit that does not evict it: a HELD slot's used flag is clear (R57). -/
def Chart.rested (c : Chart) : Chart := if c.state = .held then { c with used := false } else c

/-- The state behind a visit that does not evict (R57). -/
def visited (s : State) : State := pointerMoved (updateChart s.cst.evictPtr Chart.rested s)

/-- Four visits, one to each slot. -/
def visitedAll (s : State) : State := visited (visited (visited (visited s)))

@[simp] theorem evictPtr_visited : (visited s).cst.evictPtr = s.cst.evictPtr + 1 := by
  simp [visited, pointerMoved]

theorem recordAt_visited (i : SlotNo) : recordAt (visited s) i =
    if s.cst.evictPtr = i then (recordAt s i).map Chart.rested else recordAt s i := by
  rw [visited, recordAt_pointerMoved, recordAt_updateChart]

/-- A pass that does not evict changes slots and pointer alone (R57). -/
def PassedTo (s u : State) : Prop :=
  u = { s with cst := { s.cst with slots := u.cst.slots, evictPtr := u.cst.evictPtr } }

theorem PassedTo.trans (h : PassedTo s u) (h' : PassedTo u v) : PassedTo s v := by
  unfold PassedTo at h h' ⊢
  rw [h', h]

theorem passedTo_pointerMoved : PassedTo s (pointerMoved s) := rfl

theorem passedTo_visited : PassedTo s (visited s) := by
  unfold PassedTo visited updateChart
  split <;> rfl

theorem passedTo_visitedAll : PassedTo s (visitedAll s) :=
  ((passedTo_visited.trans passedTo_visited).trans passedTo_visited).trans passedTo_visited

/-- A visit to a slot that is not HELD, or was used, goes on to the next (R57). -/
theorem secondChance_visited (h : recordAt s s.cst.evictPtr = some c) (hu : c.state = .held → c.used = true) :
    secondChance (n + 1) s = secondChance n (visited s) := by
  rw [visited, updateChart_eq h]
  by_cases hs : c.state = .held
  · rw [secondChance_clears h hs (hu hs), Chart.rested, if_pos hs]
    rfl
  · have hset : setChart s.cst.evictPtr (some c) s = s := by
      simp only [setChart, ← h, recordAt]
      exact congrArg (fun l => { s with cst := { s.cst with slots := l } }) (Vector.set_getElem_self _)
    rw [secondChance_passes h hs, Chart.rested, if_neg hs, hset]

/-- The four places from a place on are the four slots. -/
theorem slot_from (p i : SlotNo) : i = p ∨ i = p + 1 ∨ i = p + 1 + 1 ∨ i = p + 1 + 1 + 1 := by
  revert p i
  decide

theorem slots_apart (p : SlotNo) : p ≠ p + 1 ∧ p ≠ p + 1 + 1 ∧ p ≠ p + 1 + 1 + 1 ∧ p + 1 + 1 + 1 + 1 = p := by
  revert p
  decide

@[simp] theorem evictPtr_visitedAll : (visitedAll s).cst.evictPtr = s.cst.evictPtr := by
  simp only [visitedAll, evictPtr_visited]
  exact (slots_apart _).2.2.2

theorem recordAt_visitedAll (i : SlotNo) : recordAt (visitedAll s) i = (recordAt s i).map Chart.rested := by
  obtain ⟨h1, h2, h3, -⟩ := slots_apart s.cst.evictPtr
  obtain ⟨h12, h13, -, -⟩ := slots_apart (s.cst.evictPtr + 1)
  obtain ⟨h23, -, -, -⟩ := slots_apart (s.cst.evictPtr + 1 + 1)
  simp only [visitedAll, recordAt_visited, evictPtr_visited]
  rcases slot_from s.cst.evictPtr i with rfl | rfl | rfl | rfl
  · rw [if_neg h3.symm, if_neg h2.symm, if_neg h1.symm, if_pos rfl]
  · rw [if_neg h13.symm, if_neg h12.symm, if_pos rfl, if_neg h1]
  · rw [if_neg h23.symm, if_pos rfl, if_neg h12, if_neg h2]
  · rw [if_pos rfl, if_neg h23, if_neg h13, if_neg h3]

/-- Where no slot falls to its first visit, the fifth visit comes to the slot the pass began with (R57). -/
theorem secondChance_five (h : ∀ i, ∃ c, recordAt s i = some c ∧ (c.state = .held → c.used = true)) :
    secondChance 5 s = secondChance 1 (visitedAll s) := by
  obtain ⟨h1, h2, h3, -⟩ := slots_apart s.cst.evictPtr
  obtain ⟨h12, h13, -, -⟩ := slots_apart (s.cst.evictPtr + 1)
  obtain ⟨h23, -, -, -⟩ := slots_apart (s.cst.evictPtr + 1 + 1)
  obtain ⟨a, ha, hau⟩ := h s.cst.evictPtr
  obtain ⟨b, hb, hbu⟩ := h (s.cst.evictPtr + 1)
  obtain ⟨c, hc, hcu⟩ := h (s.cst.evictPtr + 1 + 1)
  obtain ⟨d, hd, hdu⟩ := h (s.cst.evictPtr + 1 + 1 + 1)
  rw [secondChance_visited ha hau]
  rw [secondChance_visited (c := b) (by simpa [recordAt_visited] using hb) hbu]
  rw [secondChance_visited (c := c) (by simpa [recordAt_visited, h12, h2] using hc) hcu]
  rw [secondChance_visited (c := d) (by simpa [recordAt_visited, h23, h13, h3] using hd) hdu]
  rfl

/-- With no slot HELD every visit passes (R57). -/
theorem secondChance_unheld (h : ∀ i, ∃ c, recordAt s i = some c ∧ c.state ≠ .held) :
    secondChance n s = (pointerMoved^[n] s, none) := by
  induction n generalizing s with
  | zero => rfl
  | succ n ih =>
    obtain ⟨c, hc, hs⟩ := h s.cst.evictPtr
    exact (secondChance_passes hc hs).trans (ih h)

/-- After four places the pointer stands where it stood. -/
theorem pointerMoved_five : pointerMoved^[5] s = pointerMoved s :=
  congrArg (fun p => { s with cst := { s.cst with evictPtr := p + 1 } }) (slots_apart s.cst.evictPtr).2.2.2

end

/-- Settles O20: the pass is followed visit by visit, and a search for an own key meets a free one in nine. -/
theorem allocationFindsSlot : Obligations.AllocationFindsSlot := by
  refine ⟨fun s => ⟨fun i => lowestFree_iff, fun i => findSlot_lowest, findSlot_pass⟩,
    fun s n c hc => ⟨rfl, secondChance_passes hc, secondChance_clears hc, secondChance_evicts hc⟩,
    fun s => ⟨fun h => ?unheld, fun h hfirst => ?first, fun h => ?all⟩, fun s => ⟨keyHeld_nextSequence s, fun q => ?key⟩⟩
  case unheld => exact (secondChance_unheld h).trans (congrArg (·, none) pointerMoved_five)
  case first =>
    obtain ⟨c, hc, hs⟩ := hfirst
    have hrecord : recordAt (visitedAll s) (visitedAll s).cst.evictPtr = some c := by
      rw [evictPtr_visitedAll, recordAt_visitedAll, hc, Option.map_some, Chart.rested, if_neg hs]
    have hpass : secondChance 5 s = (pointerMoved (visitedAll s), none) :=
      (secondChance_five h).trans (secondChance_passes hrecord hs)
    have hptr : (pointerMoved (visitedAll s)).cst.evictPtr = s.cst.evictPtr + 1 := by simp [pointerMoved]
    have hframe := passedTo_visitedAll.trans (passedTo_pointerMoved (s := visitedAll s))
    rw [PassedTo, hptr] at hframe
    rw [hpass]
    refine ⟨rfl, hptr, hframe, fun i d hd => ?_⟩
    rw [recordAt_pointerMoved, recordAt_visitedAll, hd]
    rfl
  case all =>
    obtain ⟨c, hc, hs, -⟩ := h s.cst.evictPtr
    have hrecord : recordAt (visitedAll s) (visitedAll s).cst.evictPtr = some { c with used := false } := by
      rw [evictPtr_visitedAll, recordAt_visitedAll, hc, Option.map_some, Chart.rested, if_pos hs]
    have hpass := (secondChance_five fun i => (h i).imp fun c hc => ⟨hc.1, fun _ => hc.2.2⟩).trans
      (secondChance_evicts hrecord hs rfl)
    rw [hpass, evictPtr_visitedAll]
    refine ⟨rfl, ?_, by simp [pointerMoved], fun i d hi hd => ?_⟩
    · rw [recordAt_raiseNote, recordAt_freeSlot, if_pos rfl]
    · obtain ⟨e, he, hes, -⟩ := h i
      obtain rfl : e = d := Option.some.inj (he.symm.trans hd)
      rw [recordAt_raiseNote, recordAt_freeSlot, if_neg (Ne.symm hi), recordAt_pointerMoved, recordAt_visitedAll, he,
        Option.map_some, Chart.rested, if_pos hes]
  case key =>
    exact (keyHeld_congr rfl _).trans (keyHeld_freeSequence (s := s) (exists_free_ownKey s (q + 1)))

/-! ### Pages (R53, R65) -/

theorem read_write_same {m : List (Nat × Pixels)} (h : Memory.wf m) (page : Nat) (p : Pixels) :
    Memory.read (Memory.write m page p) page = p := by
  unfold Memory.read Memory.write
  split
  · next hblank => rw [mapGet_mapErase_same _ _ h.1, hblank, Option.getD_none]
  · rw [mapGet_mapSet_same, Option.getD_some]

theorem read_write_other {page other : Nat} (h : other ≠ page) (m : List (Nat × Pixels)) (p : Pixels) :
    Memory.read (Memory.write m page p) other = Memory.read m other := by
  unfold Memory.read Memory.write
  split
  · rw [mapGet_mapErase_other h]
  · rw [mapGet_mapSet_other h]

/-! ### Run bytes (R144, R153) -/

theorem decodeRuns_runByte (level : BitVec 4) {run : Nat} (h1 : 1 ≤ run) (h16 : run ≤ 16) (rest : List Byte) :
    decodeRuns (runByte level run :: rest) = List.replicate run level ++ decodeRuns rest := by
  have hrun : (BitVec.ofNat 4 (run - 1)).toNat + 1 = run := by
    rw [BitVec.toNat_ofNat]
    omega
  rw [decodeRuns, runByte, BitVec.extractLsb'_append_eq_right, BitVec.extractLsb'_append_eq_left, hrun]

/-- The pixels of a run begun and of the line behind it come back (R144, R153). -/
theorem decodeRuns_encodeFrom (p : Pixels) {level : BitVec 4} {run : Nat} (h1 : 1 ≤ run) (h16 : run ≤ 16) :
    decodeRuns (encodeFrom level run p) = List.replicate run level ++ p := by
  induction p generalizing level run with
  | nil => rw [encodeFrom, decodeRuns_runByte level h1 h16, decodeRuns]
  | cons x rest ih =>
    unfold encodeFrom
    split
    · next hsame =>
      obtain ⟨rfl, hlt⟩ := hsame
      rw [ih (by omega) hlt, List.replicate_succ', List.append_assoc, List.singleton_append]
    · rw [decodeRuns_runByte level h1 h16, ih (le_refl 1) (by omega), List.replicate_one, List.singleton_append]

theorem decodeRuns_encodeRuns (p : Pixels) : decodeRuns (encodeRuns p) = p := by
  cases p with
  | nil => rfl
  | cons x rest => exact decodeRuns_encodeFrom rest (le_refl 1) (by omega)

/-- A run byte lays down 1 to 16 pixels (R144). -/
theorem decodeRuns_length (bytes : List Byte) :
    bytes.length ≤ (decodeRuns bytes).length ∧ (decodeRuns bytes).length ≤ 16 * bytes.length := by
  induction bytes with
  | nil => exact ⟨le_refl 0, le_refl 0⟩
  | cons b rest ih =>
    obtain ⟨hlow, hhigh⟩ := ih
    have hrun := (b.extractLsb' 0 4).isLt
    simp only [decodeRuns, List.length_append, List.length_replicate, List.length_cons]
    omega

/-- A line is 75 to 1,200 run bytes (R144). -/
theorem encodeRuns_length {p : Pixels} (h : p.length = 1200) :
    75 ≤ (encodeRuns p).length ∧ (encodeRuns p).length ≤ 1200 := by
  have hbounds := decodeRuns_length (encodeRuns p)
  rw [decodeRuns_encodeRuns, h] at hbounds
  omega

/-! ### Fragments (R145) -/

/-- The run bytes a fragment carries (R145). -/
def fragmentPart (runs : List Byte) (n : Nat) : List Byte := (runs.drop (240 * n)).take 240

/-- The first fragments carry the first run bytes, in order (R145). -/
theorem flatten_fragmentPart (runs : List Byte) (g : Nat) :
    ((List.range g).map (fragmentPart runs)).flatten = runs.take (240 * g) := by
  induction g with
  | zero => rfl
  | succ g ih =>
    rw [List.range_succ, List.map_append, List.flatten_append, ih, List.map_singleton, List.flatten_singleton,
      fragmentPart, ← List.take_add, Nat.mul_succ]

theorem fragmentCount_bounds (n : Nat) : n ≤ 240 * fragmentCount n ∧ 240 * fragmentCount n < n + 240 := by
  simp only [fragmentCount, Config.fragmentBytes]
  omega

theorem fragmentPart_length (runs : List Byte) (n : Nat) :
    (fragmentPart runs n).length = min 240 (runs.length - 240 * n) := by
  rw [fragmentPart, List.length_take, List.length_drop]

theorem lineFragments_get (key : Key) (index : Nat) (e : LineEntry) (p : Pixels) {n : Nat}
    (h : n < fragmentCount (encodeRuns p).length) : (lineFragments key index e p)[n]? =
      some (.lineF key (BitVec.ofNat 16 index) (BitVec.ofNat 4 (fragmentCount (encodeRuns p).length)) (BitVec.ofNat 4 n)
        (BitVec.ofNat 8 e.q) (BitVec.ofNat 16 e.u) (fragmentPart (encodeRuns p) n)) := by
  simp only [lineFragments, List.getElem?_map, List.getElem?_range h, Option.map_some]
  rfl

/-- Settles O24: a line of 75 to 1,200 run bytes, cut every 240. -/
theorem pixelsReadBack : Obligations.PixelsReadBack := by
  refine ⟨fun m page other p hwf => ⟨read_write_same hwf page p, fun hother => read_write_other hother m p⟩,
    fun p => ⟨decodeRuns_encodeRuns p, encodeRuns_length⟩, ?_⟩
  intro key index e p hp g
  obtain ⟨hlow, hhigh⟩ := encodeRuns_length hp
  obtain ⟨hcover, htight⟩ : (encodeRuns p).length ≤ 240 * g ∧ 240 * g < (encodeRuns p).length + 240 :=
    fragmentCount_bounds _
  refine ⟨by omega, by omega, by rw [lineFragments, List.length_map, List.length_range],
    (List.range g).map (fragmentPart (encodeRuns p)), ?_, by rw [List.length_map, List.length_range], ?_⟩
  · rw [flatten_fragmentPart, List.take_of_length_le hcover]
  · intro n part hpart
    have hn : n < g := by
      have hin := (List.getElem?_eq_some_iff.mp hpart).1
      rwa [List.length_map, List.length_range] at hin
    rw [List.getElem?_map, List.getElem?_range hn, Option.map_some, Option.some.injEq] at hpart
    have hlength := fragmentPart_length (encodeRuns p) n
    rw [hpart] at hlength
    refine ⟨by omega, by omega, fun hnext => by omega, ?_⟩
    rw [← hpart]
    exact lineFragments_get key index e p hn

/-! ### A heard OPEN (R56 to R58, R88, R91) -/

/-- A record without what hearing a frame may change of it: its last reference and its dirty flags (R80, R121). -/
def Chart.unheard (c : Chart) : Chart := { c with lastReference := 0, dirty := 0 }

section
variable {s u : State}

/-- What of a record an update leaves, it leaves of every slot's. -/
theorem map_recordAt_updateChart {α : Type} {g : Chart → α} {f : Chart → Chart} (hf : ∀ c, g (f c) = g c) (j i : SlotNo) :
    (recordAt (updateChart j f s) i).map g = (recordAt s i).map g := by
  rw [recordAt_updateChart]
  split
  · rw [Option.map_map, show g ∘ f = g from funext hf]
  · rfl

theorem unheard_setAllDirty (i : SlotNo) :
    (recordAt (setAllDirty s) i).map Chart.unheard = (recordAt s i).map Chart.unheard := by
  have hdirty (v : State) (j : SlotNo) : (recordAt (updateChart j (fun c => { c with dirty := allDirty }) v) i).map
      Chart.unheard = (recordAt v i).map Chart.unheard := map_recordAt_updateChart (fun _ => by rfl) j i
  simp only [setAllDirty, allSlots, List.foldl_cons, List.foldl_nil, hdirty]

theorem unheard_markPresent (sender : Station) (stamp : Nat) (i : SlotNo) :
    (recordAt (markPresent sender stamp s) i).map Chart.unheard = (recordAt s i).map Chart.unheard := by
  unfold markPresent
  split
  · rfl
  · dsimp only
    split
    · exact unheard_setAllDirty i
    · rfl

theorem unheard_refreshOf (p : Payload) (stamp : Nat) (i : SlotNo) :
    (recordAt (refreshOf p stamp s) i).map Chart.unheard = (recordAt s i).map Chart.unheard := by
  unfold refreshOf refreshReference
  split
  · split
    · rfl
    · exact map_recordAt_updateChart (fun _ => by rfl) _ i
  · rfl

theorem unheard_heardBy (t : Nat) (sender : Station) (p : Payload) (i : SlotNo) :
    (recordAt (heardBy t sender p s) i).map Chart.unheard = (recordAt s i).map Chart.unheard := by
  unfold heardBy
  rw [unheard_refreshOf, recordAt_congr (congrArg Cst.slots (bump_cst ..)), unheard_markPresent]
  exact congrArg _ (recordAt_congr (by simp) i)

/-- The slots an OPEN withdraws or shares are found by what hearing it leaves (R89, R90). -/
theorem candidates_of_unheard (h : ∀ i, (recordAt u i).map Chart.unheard = (recordAt s i).map Chart.unheard)
    (hxen : u.xen = s.xen) (rate : Rate) (tPeer : Int) (i : SlotNo) :
    withdrawCandidate u rate tPeer i = withdrawCandidate s rate tPeer i ∧
    aliasCandidate u rate tPeer i = aliasCandidate s rate tPeer i := by
  have hrecord := h i
  cases hu : recordAt u i <;> cases hs : recordAt s i <;> rw [hu, hs] at hrecord
  case none.none => exact ⟨by simp only [withdrawCandidate, hu, hs], by simp only [aliasCandidate, hu, hs]⟩
  case none.some => cases hrecord
  case some.none => cases hrecord
  case some.some c d =>
    have hsame {α : Type} (g : Chart → α) : g c.unheard = g d.unheard := congrArg g (Option.some.inj hrecord)
    have hrate : c.rate = d.rate := hsame Chart.rate
    have hstate : c.state = d.state := hsame Chart.state
    have hbound : c.bound = d.bound := hsame Chart.bound
    have hlocal : c.localTransition = d.localTransition := hsame Chart.localTransition
    have hpeer : c.peerTransition = d.peerTransition := hsame Chart.peerTransition
    exact ⟨by simp only [withdrawCandidate, hu, hs, hxen, hrate, hlocal],
      by simp only [aliasCandidate, hu, hs, hrate, hstate, hbound, hlocal, hpeer]⟩

theorem heardBy_boot (t : Nat) (sender : Station) (p : Payload) : (heardBy t sender p s).ssv.boot = s.ssv.boot := by
  simp [heardBy]

theorem heardBy_now (h : s.phase = .running) (t : Nat) (sender : Station) (p : Payload) :
    (heardBy t sender p s).now = stampAt t s := by
  simp [heardBy, State.now, stampAt, advance_clock _ _ h]

theorem keyHeld_heardBy (t : Nat) (sender : Station) (p : Payload) (k : Key) :
    keyHeld (heardBy t sender p s) k = keyHeld s k := congrArg Option.isSome (slotOf_heardBy t p k)

theorem lowestFree_heardBy (t : Nat) (sender : Station) (p : Payload) :
    lowestFree (heardBy t sender p s) = lowestFree s := by
  have hfree (i : SlotNo) : (recordAt (heardBy t sender p s) i).isNone = (recordAt s i).isNone := by
    rw [← Option.isNone_map (f := Chart.unheard), unheard_heardBy, Option.isNone_map]
  simp only [lowestFree, hfree]

theorem nearestSlot_none {candidate : SlotNo → Option Int} (h : ∀ i, candidate i = none) :
    nearestSlot candidate = none := by
  cases hnear : nearestSlot candidate with
  | none => rfl
  | some found => exact absurd (nearestSlot_candidate (i := found.1) (o := found.2) hnear) (by simp [h])

theorem rateOfCode_eq_none_iff {n : Nat} : rateOfCode n = none ↔ 2 < n := by
  rcases n with _ | _ | _ | n <;> simp [rateOfCode]

variable {sender : Station} {stamp : Nat} {k : Key} {tag rate : Byte} {delay : BitVec 16}

theorem judgeOpen_malformed (h : 2 < rate.toNat ∨ k.opener.toNat ≠ sender.val ∨ 7 < k.opener.toNat) :
    judgeOpen sender stamp k tag rate delay s = bump 5 1 s := by
  unfold judgeOpen
  split
  · rfl
  · next r hr =>
    have hknown : ¬ 2 < rate.toNat := fun hn => by simp [rateOfCode_eq_none_iff.mpr hn] at hr
    exact if_pos ((h.resolve_left hknown).symm)

variable {r : Rate}

theorem judgeOpen_ignored (hr : rateOfCode rate.toNat = some r) (hopener : k.opener.toNat = sender.val)
    (h7 : k.opener.toNat ≤ 7) (h : tag.toNat ≠ s.ssv.boot.tag ∨ keyHeld s k = true) :
    judgeOpen sender stamp k tag rate delay s = s := by
  simp only [judgeOpen, hr]
  exact (if_neg (by omega)).trans (if_pos h)

/-- An OPEN of own tag and unknown key with no slot to withdraw or share is adopted (R91). -/
theorem judgeOpen_adopts (hr : rateOfCode rate.toNat = some r) (hopener : k.opener.toNat = sender.val)
    (h7 : k.opener.toNat ≤ 7) (htag : tag.toNat = s.ssv.boot.tag) (hk : keyHeld s k = false)
    (hwithdraw : ∀ i, withdrawCandidate s r (stamp - delay.toNat) i = none)
    (halias : ∀ i, aliasCandidate s r (stamp - delay.toNat) i = none) :
    judgeOpen sender stamp k tag rate delay s = adoptChart k s.ssv.boot.tag r (stamp - delay.toNat) s := by
  have htaken : takeOpen k tag.toNat r (stamp - delay.toNat) s = adoptChart k s.ssv.boot.tag r (stamp - delay.toNat) s := by
    simp only [takeOpen, nearestSlot_none hwithdraw, nearestSlot_none halias, htag]
  rw [← htaken]
  simp only [judgeOpen, hr]
  exact (if_neg (by omega)).trans (if_neg (by simp [htag, hk]))

theorem adoptChart_fails {tagNo : Nat} {tPeer : Int} (h : (findSlot s).2 = none) :
    adoptChart k tagNo r tPeer s = bump 13 1 (raiseNote 11 (some k) 2 (findSlot s).1) := by
  simp only [adoptChart, h, allocationFailed]

theorem adoptChart_installs {tagNo : Nat} {tPeer : Int} {i : SlotNo} (h : (findSlot s).2 = some i) :
    adoptChart k tagNo r tPeer s =
      installChart i (freshChart k tagNo r none (some tPeer) s.now) (findSlot s).1 := by
  have hnow : (findSlot s).1.now = s.now := by simp [State.now]
  simp only [adoptChart, h, hnow]

theorem recordAt_installChart (i j : SlotNo) (c : Chart) :
    recordAt (installChart i c s) j = if i = j then some c else recordAt s j := recordAt_setChart s i j _

/-- A chart put in a slot: its record, a view of all codes 0 and no open request (R56, R117). -/
theorem installChart_eq (i : SlotNo) (c : Chart) : installChart i c s = { s with
    cst := { s.cst with slots := (installChart i c s).cst.slots }
    xen := { s.xen with views := s.xen.views.set i .empty, openReq := s.xen.openReq.set i .nothing } } := rfl

end

/-- Settles O34: judged on the state its hearing leaves, where candidates, keys and FREE slots are as before. -/
theorem openJudgedAndAdopted : Obligations.OpenJudgedAndAdopted := by
  constructor
  · intro s t sender k tag rate delay hh p b
    rw [exec_openHeard hh]
    refine ⟨fun hbad => congrArg _ (judgeOpen_malformed hbad), fun hrate hopener h7 hknown => congrArg _ ?_⟩
    obtain ⟨r, hr⟩ := Option.ne_none_iff_exists'.mp (mt rateOfCode_eq_none_iff.mp hrate.not_gt)
    refine judgeOpen_ignored hr hopener h7 ?_
    rwa [heardBy_boot, keyHeld_heardBy]
  · intro s t sender k tag rate delay r hh hr hopener h8 htag hk p b tPeer found hwithdraw halias
    have hcandidates := candidates_of_unheard (unheard_heardBy t sender p) (heardBy_xen (s := s) t sender p) r tPeer
    have hjudged : judgeOpen sender (stampAt t s) k tag rate delay b = adoptChart k s.ssv.boot.tag r tPeer b := by
      rw [← heardBy_boot t sender p]
      exact judgeOpen_adopts hr hopener (by omega) (by rwa [heardBy_boot]) (by rwa [keyHeld_heardBy])
        (fun j => (hcandidates j).1.trans (hwithdraw j)) (fun j => (hcandidates j).2.trans (halias j))
    have hlowest : lowestFree b = lowestFree s := lowestFree_heardBy t sender p
    rw [exec_openHeard hh, hjudged]
    refine ⟨fun i hi => findSlot_lowest (hlowest.trans hi), fun hn => findSlot_pass (hlowest.trans hn),
      fun hn => congrArg _ (adoptChart_fails hn), fun i hi => ⟨_, congrArg _ (adoptChart_installs hi), ?_, fun j hj => ?_,
        installChart_eq i _⟩⟩
    · rw [recordAt_installChart, if_pos rfl, heardBy_now hh.1]
      rfl
    · rw [recordAt_installChart, if_neg (Ne.symm hj)]

end Sys2Proof.Machine

/-! Proofs for chapter 5, chart identity across stations, with the transfers of lines that every step keeps in agreement. -/

namespace Sys2Proof.Machine

/-! ## Claim table, build list and queue, each by itself -/

/-- The line an entry carries a fragment of, if it carries one (R145). -/
def Entry.line (e : Entry) : Option BuildLine :=
  match e.payload with
  | .lineF k i .. => some ⟨k, i.toNat⟩
  | _ => none

/-- The line a claim entry stands for (R137). -/
def Claim.line (c : Claim) : BuildLine := ⟨c.key, c.index⟩

/-- A line has an own ACTIVE entry (R141). -/
def ActiveIn (claims : List Claim) (l : BuildLine) : Prop := ∃ c ∈ claims, c.state = .active ∧ c.line = l

/-- A line has an own PENDING entry (R136). -/
def PendingIn (claims : List Claim) (l : BuildLine) : Prop := ∃ c ∈ claims, c.state = .pending ∧ c.line = l

/-- Two own entries are not of one line (R137). -/
def OwnApart (a b : Claim) : Prop := a.isOwn = true → b.isOwn = true → a.key = b.key → a.index ≠ b.index

/-- Two HEARD entries are not of one line and claimant (R137). -/
def HeardApart (a b : Claim) : Prop :=
  a.state = .heard → b.state = .heard → a.key = b.key → a.index = b.index → a.claimant ≠ b.claimant

/-- The claim table: lines of a chart, under keys that are filed, none twice (R137). -/
structure TableSound (filed : Key → Prop) (claims : List Claim) : Prop where
  index : ∀ c ∈ claims, c.index < 2048
  filed : ∀ c ∈ claims, filed c.key
  own : claims.Pairwise OwnApart
  heard : claims.Pairwise HeardApart

/-- The build list: ACTIVE lines, each once (R142). -/
structure BuildSound (claims : List Claim) (build : List BuildLine) : Prop where
  once : build.Nodup
  active : ∀ l ∈ build, ActiveIn claims l

/-- An entry's line is built and still ACTIVE, or leaves with the entry at its loss (R105, R141, R146). -/
structure Entry.Justified (claims : List Claim) (build : List BuildLine) (e : Entry) (l : BuildLine) : Prop where
  built : l ∉ build
  won : ¬ PendingIn claims l
  held : ActiveIn claims l ∨ e.onWire = true ∧ .remove ∈ e.waiting

/-- No fragment of a line stands behind its last. -/
def LastBehind (d e : Entry) : Prop := ∀ l, d.line = some l → e.line = some l → d.isLastFragment = false

/-- No frame on the wire stands behind one of its class (R101, R103). -/
def OldestOnWire (d e : Entry) : Prop := e.onWire = true → kindClass d.payload.kind ≠ kindClass e.payload.kind

/-- The queue: fragments in order, the frame on the wire the oldest of its class, none waiting for another key (R103, R105). -/
structure QueueSound (q : List Entry) : Prop where
  order : q.Pairwise LastBehind
  oldest : q.Pairwise OldestOnWire
  waiting : ∀ e ∈ q, ∀ old new, Request.replaceKey old new ∉ e.waiting

/-- Claim table, build list and queue agree, the table being filed under these keys. -/
structure Transfers (filed : Key → Prop) (claims : List Claim) (build : List BuildLine) (q : List Entry) : Prop where
  table : TableSound filed claims
  listed : BuildSound claims build
  fragments : ∀ e ∈ q, ∀ l, e.line = some l → e.Justified claims build l
  queue : QueueSound q

/-- A key is that of a slot that is not FREE (R137). -/
def Filed (s : State) (k : Key) : Prop := ∃ i c, recordAt s i = some c ∧ c.key = k

theorem isFragmentOf_iff {k : Key} {j : Nat} {e : Entry} : e.isFragmentOf k j = true ↔ e.line = some ⟨k, j⟩ := by
  unfold Entry.isFragmentOf Entry.line
  split <;> simp [*]

theorem isActiveOf_iff {k : Key} {j : Nat} {c : Claim} : c.isActiveOf k j = true ↔ c.state = .active ∧ c.line = ⟨k, j⟩ := by
  simp [Claim.isActiveOf, Claim.line, and_assoc]

theorem isPendingOf_iff {k : Key} {j : Nat} {c : Claim} :
    c.isPendingOf k j = true ↔ c.state = .pending ∧ c.line = ⟨k, j⟩ := by
  simp [Claim.isPendingOf, Claim.line, and_assoc]

theorem isOwn_iff {c : Claim} : c.isOwn = true ↔ c.state ≠ .heard := by simp [Claim.isOwn]

/-- `Tracked` is agreement, with the build list within its room. -/
theorem tracked_iff {s : State} : Tracked s ↔
    Transfers (Filed s) s.xen.claims s.xen.build s.slc.queue ∧ s.xen.build.length ≤ 64 := by
  have hactive (k : Key) (j : Nat) : (∃ c ∈ s.xen.claims, c.isActiveOf k j = true) ↔ ActiveIn s.xen.claims ⟨k, j⟩ := by
    simp only [isActiveOf_iff, ActiveIn]
  have hpending (k : Key) (j : Nat) :
      (∀ c ∈ s.xen.claims, c.isPendingOf k j = false) ↔ ¬ PendingIn s.xen.claims ⟨k, j⟩ := by
    simp only [PendingIn, not_exists, not_and, ← isPendingOf_iff, Bool.not_eq_true]
  constructor
  · intro ⟨index, keys, own, heard, room, once, active, fragments, order, oldest, waiting⟩
    refine ⟨⟨⟨index, keys, own, heard⟩, ⟨once, fun l hl => (hactive l.key l.index).mp (active l hl)⟩, fun e he l hl => ?_,
      ⟨order.imp fun h l hd he => h l.key l.index (isFragmentOf_iff.mpr hd) (isFragmentOf_iff.mpr he), oldest,
        waiting⟩⟩, room⟩
    obtain ⟨hbuilt, hwon, hheld⟩ := fragments e he l.key l.index (isFragmentOf_iff.mpr hl)
    exact ⟨hbuilt, (hpending _ _).mp hwon, hheld.imp_left (hactive _ _).mp⟩
  · intro ⟨⟨⟨index, keys, own, heard⟩, ⟨once, active⟩, fragments, ⟨order, oldest, waiting⟩⟩, room⟩
    refine ⟨index, keys, own, heard, room, once, fun l hl => (hactive _ _).mpr (active l hl), fun e he k j hkj => ?_,
      order.imp fun h k j hd he => h ⟨k, j⟩ (isFragmentOf_iff.mp hd) (isFragmentOf_iff.mp he), oldest, waiting⟩
    obtain ⟨hbuilt, hwon, hheld⟩ := fragments e he ⟨k, j⟩ (isFragmentOf_iff.mp hkj)
    exact ⟨hbuilt, (hpending _ _).mpr hwon, hheld.imp_left (hactive _ _).mpr⟩

/-! ### Taking out of the tables -/

section
variable {filed filed' : Key → Prop} {claims : List Claim} {build : List BuildLine} {q : List Entry}

theorem TableSound.sublist (h : TableSound filed claims) {rest : List Claim} (hrest : rest.Sublist claims) :
    TableSound filed rest where
  index c hc := h.index c (hrest.subset hc)
  filed c hc := h.filed c (hrest.subset hc)
  own := h.own.sublist hrest
  heard := h.heard.sublist hrest

/-- Of the entries of one line at most one is own (R137). -/
theorem TableSound.own_unique (h : TableSound filed claims) {a b : Claim} (ha : a ∈ claims) (hb : b ∈ claims)
    (hao : a.isOwn = true) (hbo : b.isOwn = true) (hline : a.line = b.line) : a = b := by
  by_contra hne
  have hsymm : Std.Symm OwnApart := ⟨fun x y hxy hy hx hkey hindex => hxy hx hy hkey.symm hindex.symm⟩
  obtain ⟨hkey, hindex⟩ := BuildLine.mk.inj hline
  exact h.own.forall ha hb hne hao hbo hkey hindex

/-- A line is not ACTIVE and PENDING at once. -/
theorem TableSound.not_pending_of_active (h : TableSound filed claims) {l : BuildLine} (ha : ActiveIn claims l) :
    ¬ PendingIn claims l := by
  rintro ⟨b, hb, hbs, hbl⟩
  obtain ⟨a, ha, has, hal⟩ := ha
  obtain rfl := h.own_unique ha hb (isOwn_iff.mpr (by simp [has])) (isOwn_iff.mpr (by simp [hbs])) (hal.trans hbl.symm)
  rw [has] at hbs
  cases hbs

/-- The build list is no longer than the claim table (R137, R142). -/
theorem BuildSound.length_le (h : BuildSound claims build) : build.length ≤ claims.length := by
  have hsub : build ⊆ claims.map Claim.line := fun l hl => by
    obtain ⟨c, hc, -, hline⟩ := h.active l hl
    exact List.mem_map.mpr ⟨c, hc, hline⟩
  simpa using (h.once.subperm hsub).length_le

/-- What an entry becomes when requests reach it or it leaves the wire: of the same kind and line, and on its way out when it was (R105). -/
structure Entry.Becomes (e e' : Entry) : Prop where
  kind : e'.payload.kind = e.payload.kind
  line : e'.line = e.line
  last : e'.isLastFragment = e.isLastFragment
  wire : e'.onWire = true → e.onWire = true
  leaving : e.onWire = true → .remove ∈ e.waiting → e'.onWire = true ∧ .remove ∈ e'.waiting
  waiting : ∀ old new, Request.replaceKey old new ∈ e'.waiting → Request.replaceKey old new ∈ e.waiting

theorem Entry.Becomes.refl (e : Entry) : e.Becomes e :=
  ⟨rfl, rfl, rfl, id, fun hw hr => ⟨hw, hr⟩, fun _ _ h => h⟩

/-- The queue stays sound when entries leave and others become what they may. -/
theorem QueueSound.filterMap (h : QueueSound q) {f : Entry → Option Entry}
    (hf : ∀ e ∈ q, ∀ e', f e = some e' → e.Becomes e') : QueueSound (q.filterMap f) where
  order := List.pairwise_filterMap.mpr (h.order.imp_of_mem fun {d e} hd he hde d' hd' e' he' l hdl hel => by
    rw [(hf d hd d' hd').last]
    exact hde l ((hf d hd d' hd').line ▸ hdl) ((hf e he e' he').line ▸ hel))
  oldest := List.pairwise_filterMap.mpr (h.oldest.imp_of_mem fun {d e} hd he hde d' hd' e' he' hw => by
    rw [(hf d hd d' hd').kind, (hf e he e' he').kind]
    exact hde ((hf e he e' he').wire hw))
  waiting e' he' old new hmem := by
    obtain ⟨e, he, hfe⟩ := List.mem_filterMap.mp he'
    exact h.waiting e he old new ((hf e he e' hfe).waiting old new hmem)

/-- Agreement is kept by whatever takes claims, build lines and entries out, as long as the lines that stay keep their ACTIVE
entries and the fragments of the others are on their way out. -/
theorem Transfers.prune (h : Transfers filed claims build q) {keep : Claim → Bool} {stay : BuildLine → Bool}
    {f : Entry → Option Entry} (hkeys : ∀ c ∈ claims, keep c = true → filed' c.key)
    (hkeep : ∀ c ∈ claims, c.state = .active → stay c.line = true → keep c = true)
    (hf : ∀ e ∈ q, ∀ e', f e = some e' → e.Becomes e')
    (hgone : ∀ e ∈ q, ∀ e', f e = some e' → ∀ l, e.line = some l → stay l = false →
      e'.onWire = true ∧ .remove ∈ e'.waiting) :
    Transfers filed' (claims.filter keep) (build.filter stay) (q.filterMap f) := by
  have hactive {l : BuildLine} (hl : ActiveIn claims l) (hstay : stay l = true) : ActiveIn (claims.filter keep) l := by
    obtain ⟨c, hc, hs, rfl⟩ := hl
    exact ⟨c, List.mem_filter.mpr ⟨hc, hkeep c hc hs hstay⟩, hs, rfl⟩
  have hpending {l : BuildLine} (hl : PendingIn (claims.filter keep) l) : PendingIn claims l := by
    obtain ⟨c, hc, hs⟩ := hl
    exact ⟨c, List.mem_of_mem_filter hc, hs⟩
  have htable := h.table.sublist (List.filter_sublist (p := keep))
  refine ⟨⟨htable.index, fun c hc => ?_, htable.own, htable.heard⟩, ⟨h.listed.once.filter _, fun l hl => ?_⟩,
    fun e' he' l hl => ?_, h.queue.filterMap hf⟩
  · obtain ⟨hc, hk⟩ := List.mem_filter.mp hc
    exact hkeys c hc hk
  · obtain ⟨hl, hstay⟩ := List.mem_filter.mp hl
    exact hactive (h.listed.active l hl) hstay
  · obtain ⟨e, he, hfe⟩ := List.mem_filterMap.mp he'
    have hbecomes := hf e he e' hfe
    have hel : e.line = some l := hbecomes.line ▸ hl
    obtain ⟨hbuilt, hwon, hheld⟩ := h.fragments e he l hel
    refine ⟨fun hb => hbuilt (List.mem_of_mem_filter hb), fun hp => hwon (hpending hp), ?_⟩
    cases hstay : stay l with
    | true => exact hheld.imp (hactive · hstay) fun hout => hbecomes.leaving hout.1 hout.2
    | false => exact .inr (hgone e he e' hfe l hel hstay)

end

/-! ### What a queued entry becomes (R105) -/

section
variable {e e' e'' : Entry}

theorem Entry.Becomes.trans (h : e.Becomes e') (h' : e'.Becomes e'') : e.Becomes e'' where
  kind := h'.kind.trans h.kind
  line := h'.line.trans h.line
  last := h'.last.trans h.last
  wire hw := h.wire (h'.wire hw)
  leaving hw hr := h'.leaving (h.leaving hw hr).1 (h.leaving hw hr).2
  waiting old new hm := h.waiting old new (h'.waiting old new hm)

theorem line_eq_none_iff : e.line = none ↔ e.payload.isLine = false := by
  cases e with
  | mk payload => cases payload <;> simp [Entry.line, Payload.isLine]

/-- A request other than a key replacement leaves kind and line of an entry it does not remove (R105). -/
theorem apply_becomes {r : Request} (hr : ∀ old new, r ≠ .replaceKey old new) (h : e.apply r = some e') :
    e.Becomes e' ∧ r ≠ .remove := by
  cases r with
  | remove => cases h
  | replaceKey old new => exact absurd rfl (hr old new)
  | withdrawLines m =>
    refine ⟨?_, nofun⟩
    unfold Entry.apply at h
    dsimp only at h
    split at h
    · next k base mask codes hp =>
      split at h
      · cases h
      · cases h
        exact ⟨by rw [hp]; rfl, by simp only [Entry.line, hp], by simp only [Entry.isLastFragment, hp], id,
          fun hw hm => ⟨hw, hm⟩, fun _ _ hm => hm⟩
    · cases h
      exact .refl e

/-- The entry on the wire keeps a request for its loss (R105). -/
theorem take_becomes {r : Request} (hr : ∀ old new, r ≠ .replaceKey old new) (h : e.take r = some e') : e.Becomes e' := by
  unfold Entry.take at h
  split at h
  · cases h
    refine ⟨rfl, rfl, rfl, id, fun hw hm => ⟨hw, List.mem_append_left _ hm⟩, fun old new hm => ?_⟩
    rcases List.mem_append.mp hm with hm | hm
    · exact hm
    · exact absurd (List.mem_singleton.mp hm).symm (hr old new)
  · exact (apply_becomes hr h).1

/-- An entry asked to leave stays only on the wire, to leave at its loss (R105). -/
theorem take_remove (h : e.take .remove = some e') : e'.onWire = true ∧ .remove ∈ e'.waiting := by
  unfold Entry.take at h
  split at h
  · next hw =>
    cases h
    exact ⟨hw, List.mem_append_right _ (List.mem_singleton.mpr rfl)⟩
  · cases h

theorem applyAll_becomes {rs : List Request} (hrs : ∀ old new, .replaceKey old new ∉ rs)
    (h : Entry.applyAll rs e = some e') : e.Becomes e' ∧ .remove ∉ rs := by
  induction rs generalizing e with
  | nil => cases h; exact ⟨.refl _, by simp⟩
  | cons r rest ih =>
    unfold Entry.applyAll at h
    split at h
    · cases h
    · next e₁ ha =>
      obtain ⟨hfirst, hr⟩ := apply_becomes (fun old new hrk => hrs old new (hrk ▸ List.mem_cons_self)) ha
      obtain ⟨hrest, hremove⟩ := ih (fun old new hm => hrs old new (List.mem_cons_of_mem r hm)) h
      exact ⟨hfirst.trans hrest, fun hm => (List.mem_cons.mp hm).elim (fun heq => hr heq.symm) hremove⟩

/-- An entry that stays in the queue at its loss was not asked to leave (R101, R105). -/
theorem lose_becomes (hw : ∀ old new, .replaceKey old new ∉ e.waiting) (h : e.lose = some e') :
    e.Becomes e' ∧ e'.onWire = false := by
  obtain ⟨hbecomes, hstays⟩ := applyAll_becomes hw h
  have hoff : e'.onWire = false := Bool.eq_false_iff.mpr fun ht => Bool.false_ne_true (hbecomes.wire ht)
  exact ⟨⟨hbecomes.kind, hbecomes.line, hbecomes.last, fun ht => absurd (hbecomes.wire ht) Bool.false_ne_true,
    fun _ hm => absurd hm hstays, fun old new hm => by cases hbecomes.waiting old new hm⟩, hoff⟩

theorem win_becomes (clock : Nat) : e.Becomes (e.win clock) := by
  unfold Entry.win
  split
  · split
    · next hp =>
      exact ⟨by rw [hp]; rfl, by simp only [Entry.line, hp], by simp only [Entry.isLastFragment, hp], id,
        fun hw hm => ⟨hw, hm⟩, fun _ _ hm => hm⟩
    · exact .refl e
  · exact .refl e

end

/-! ### The queue grows and the table moves on -/

/-- An entry just queued: not on the wire, with no request kept (R103). -/
structure Entry.Fresh (e : Entry) : Prop where
  wire : e.onWire = false
  waiting : e.waiting = []

/-- A fresh entry that is no LINE fragment. -/
structure Entry.Plain (e : Entry) : Prop extends e.Fresh where
  line : e.line = none

theorem newEntry_fresh (p : Payload) (owner : Block) : (newEntry p owner).Fresh := ⟨rfl, rfl⟩

theorem newEntry_plain {p : Payload} (hp : p.isLine = false) (owner : Block) : (newEntry p owner).Plain :=
  ⟨newEntry_fresh p owner, line_eq_none_iff.mpr hp⟩

theorem openEntry_plain (owner : Block) (i : SlotNo) (c : Chart) : (openEntry owner i c).Plain := ⟨⟨rfl, rfl⟩, rfl⟩

section
variable {filed filed' : Key → Prop} {claims : List Claim} {build : List BuildLine} {q new : List Entry}

/-- Fresh entries join the queue's end, no fragment behind one of the same line. -/
theorem QueueSound.append (h : QueueSound q) (hfresh : ∀ e ∈ new, e.Fresh) (horder : new.Pairwise LastBehind)
    (happart : ∀ d ∈ q, ∀ e ∈ new, ∀ l, d.line = some l → e.line ≠ some l) : QueueSound (q ++ new) where
  order := List.pairwise_append.mpr ⟨h.order, horder, fun d hd e he l hdl hel => absurd hel (happart d hd e he l hdl)⟩
  oldest := List.pairwise_append.mpr ⟨h.oldest,
    List.Pairwise.imp_of_mem (fun _ he _ hw => absurd hw (by simp [(hfresh _ he).wire])) horder,
    fun d _ e he hw => absurd hw (by simp [(hfresh e he).wire])⟩
  waiting e he := by
    rcases List.mem_append.mp he with he | he
    · exact h.waiting e he
    · simp [(hfresh e he).waiting]

/-- Plain entries join the queue, and the keys filed may become more. -/
theorem Transfers.spared (h : Transfers filed claims build q) (hkeys : ∀ k, filed k → filed' k)
    (hplain : ∀ e ∈ new, e.Plain) : Transfers filed' claims build (q ++ new) where
  table := { h.table with filed := fun c hc => hkeys _ (h.table.filed c hc) }
  listed := h.listed
  fragments e he l hl := by
    rcases List.mem_append.mp he with he | he
    · exact h.fragments e he l hl
    · rw [(hplain e he).line] at hl
      cases hl
  queue := h.queue.append (fun e he => (hplain e he).toFresh)
    (List.Pairwise.imp_of_mem (R := fun _ _ => True) (fun hd _ _ l hl => by rw [(hplain _ hd).line] at hl; cases hl)
      (List.pairwise_of_forall fun _ _ => trivial))
    fun d _ e he l _ hel => by rw [(hplain e he).line] at hel; cases hel

/-- The head leaves the build list (R142). -/
theorem Transfers.unlist {l : BuildLine} (h : Transfers filed claims (l :: build) q) : Transfers filed claims build q where
  table := h.table
  listed := ⟨h.listed.once.of_cons, fun x hx => h.listed.active x (List.mem_cons_of_mem l hx)⟩
  fragments e he x hx := { h.fragments e he x hx with
    built := fun hb => (h.fragments e he x hx).built (List.mem_cons_of_mem l hb) }
  queue := h.queue

/-- The head of the build list is built: its fragments join the queue (R143). -/
theorem Transfers.build_head {l : BuildLine} (h : Transfers filed claims (l :: build) q)
    (hfresh : ∀ e ∈ new, e.Fresh) (hline : ∀ e ∈ new, e.line = some l) (horder : new.Pairwise LastBehind) :
    Transfers filed claims build (q ++ new) where
  table := h.table
  listed := h.unlist.listed
  fragments e he x hx := by
    rcases List.mem_append.mp he with he | he
    · exact h.unlist.fragments e he x hx
    · obtain rfl : l = x := Option.some.inj ((hline e he).symm.trans hx)
      have hactive := h.listed.active l List.mem_cons_self
      exact ⟨(List.nodup_cons.mp h.listed.once).1, h.table.not_pending_of_active hactive, .inl hactive⟩
  queue := h.queue.append hfresh horder fun d hd e he x hdx hex => by
    obtain rfl : l = x := Option.some.inj ((hline e he).symm.trans hex)
    exact (h.fragments d hd l hdx).built List.mem_cons_self

end

/-! ### The fragments of a built line (R145) -/

theorem mem_of_mapGet {α : Type} {m : List (Nat × α)} {i : Nat} {a : α} (h : mapGet m i = some a) : (i, a) ∈ m := by
  induction m with
  | nil => cases h
  | cons x rest ih =>
    obtain ⟨k, b⟩ := x
    unfold mapGet at h
    split at h
    · next hk => cases h; exact hk ▸ List.mem_cons_self
    · exact List.mem_cons_of_mem _ (ih h)

/-- Every page has 1,200 pixels (R53). -/
def PagesWhole (s : State) : Prop := ∀ p ∈ s.cst.pages, p.2.length = 1200

theorem PagesWhole.read_length {s : State} (h : PagesWhole s) (page : Nat) :
    (Memory.read s.cst.pages page).length = 1200 := by
  unfold Memory.read
  cases hpage : mapGet s.cst.pages page with
  | none => exact List.length_replicate
  | some p => exact h _ (mem_of_mapGet hpage)

/-- The fragments of a line of 1,200 pixels: at most five, each of the line, only the last the last (R145). -/
theorem lineFragments_entries (key : Key) {index : Nat} (hindex : index < 2048) (e : LineEntry) {p : Pixels}
    (hp : p.length = 1200) :
    let new := (lineFragments key index e p).map (fun x => newEntry x .xen)
    (∀ x ∈ new, x.Fresh) ∧ (∀ x ∈ new, x.line = some ⟨key, index⟩) ∧ new.Pairwise LastBehind := by
  have hbounds := fragmentCount_bounds (encodeRuns p).length
  have hruns := (encodeRuns_length hp).2
  simp only [lineFragments, List.map_map, List.forall_mem_map, List.pairwise_map]
  refine ⟨fun _ _ => ⟨rfl, rfl⟩, fun _ _ => ?_, ?_⟩
  · simp only [Function.comp_apply, Entry.line, newEntry, BitVec.toNat_ofNat, Option.some.injEq, BuildLine.mk.injEq, true_and]
    omega
  · refine List.Pairwise.imp_of_mem (fun {i j} hi hj hij l _ _ => ?_) List.pairwise_lt_range
    have hlast := List.mem_range.mp hj
    simp only [Function.comp_apply, Entry.isLastFragment, newEntry, BitVec.toNat_ofNat, beq_eq_false_iff_ne]
    omega

/-! ### Claims won, made, heard and filed anew -/

section
variable {filed filed' : Key → Prop} {claims more : List Claim} {build : List BuildLine} {q : List Entry}

/-- Entries join the claim table; one that is PENDING is of no line with a fragment queued (R135, R140). -/
theorem Transfers.grow (h : Transfers filed claims build q) (htable : TableSound filed (claims ++ more))
    (hpending : ∀ c ∈ more, c.state = .pending → ∀ e ∈ q, e.line ≠ some c.line) :
    Transfers filed (claims ++ more) build q where
  table := htable
  listed := ⟨h.listed.once, fun l hl => by
    obtain ⟨c, hc, hs⟩ := h.listed.active l hl
    exact ⟨c, List.mem_append_left _ hc, hs⟩⟩
  fragments e he l hl := by
    obtain ⟨hbuilt, hwon, hheld⟩ := h.fragments e he l hl
    refine ⟨hbuilt, ?_, hheld.imp_left fun ⟨c, hc, hs⟩ => ⟨c, List.mem_append_left _ hc, hs⟩⟩
    rintro ⟨c, hc, hs, rfl⟩
    rcases List.mem_append.mp hc with hc | hc
    · exact hwon ⟨c, hc, hs, rfl⟩
    · exact hpending c hc hs e he hl
  queue := h.queue

/-- A claim entry behind the send of the CLAIM of its line: ACTIVE if it was PENDING (R141). -/
def Claim.activated (l : BuildLine) (stamp : Nat) (c : Claim) : Claim :=
  if c.isPendingOf l.key l.index then { c with state := .active, expiry := some (stamp + Config.claimMs) } else c

section
variable {l : BuildLine} {stamp : Nat} {c : Claim}

theorem activated_line : (c.activated l stamp).line = c.line := by unfold Claim.activated; split <;> rfl

theorem activated_key : (c.activated l stamp).key = c.key := congrArg BuildLine.key activated_line

theorem activated_index : (c.activated l stamp).index = c.index := congrArg BuildLine.index activated_line

theorem activated_claimant : (c.activated l stamp).claimant = c.claimant := by unfold Claim.activated; split <;> rfl

theorem activated_pending (h : c.state = .pending) (hl : c.line = l) : (c.activated l stamp).state = .active := by
  unfold Claim.activated
  rw [if_pos (isPendingOf_iff.mpr ⟨h, hl⟩)]

theorem activated_active (h : c.state = .active) : c.activated l stamp = c := by
  unfold Claim.activated
  rw [if_neg fun hp => by simp [(isPendingOf_iff.mp hp).1] at h]

theorem pending_of_activated (h : (c.activated l stamp).state = .pending) : c.state = .pending := by
  unfold Claim.activated at h
  split at h
  · cases h
  · exact h

theorem activated_heard : (c.activated l stamp).state = .heard ↔ c.state = .heard := by
  unfold Claim.activated
  split
  · next hp => simp [(isPendingOf_iff.mp hp).1]
  · rfl

end

/-- A PENDING line is won: ACTIVE and at the end of the build list (R141). -/
theorem Transfers.activate (h : Transfers filed claims build q) {l : BuildLine} (hl : PendingIn claims l) (stamp : Nat) :
    Transfers filed (claims.map (Claim.activated l stamp)) (build ++ [l]) q := by
  have hactive {x : BuildLine} (hx : ActiveIn claims x) : ActiveIn (claims.map (Claim.activated l stamp)) x := by
    obtain ⟨c, hc, hs, hx⟩ := hx
    exact ⟨c, List.mem_map.mpr ⟨c, hc, activated_active hs⟩, hs, hx⟩
  have hwon : ActiveIn (claims.map (Claim.activated l stamp)) l := by
    obtain ⟨c, hc, hs, hx⟩ := hl
    exact ⟨_, List.mem_map_of_mem hc, activated_pending hs hx, activated_line.trans hx⟩
  have hpending {x : BuildLine} (hx : PendingIn (claims.map (Claim.activated l stamp)) x) : PendingIn claims x := by
    obtain ⟨_, hc', hs, hx⟩ := hx
    obtain ⟨c, hc, rfl⟩ := List.mem_map.mp hc'
    exact ⟨c, hc, pending_of_activated hs, activated_line.symm.trans hx⟩
  have hunlisted : l ∉ build := fun hin => h.table.not_pending_of_active (h.listed.active l hin) hl
  refine ⟨⟨?_, ?_, ?_, ?_⟩, ⟨?_, fun x hx => ?_⟩, fun e he x hx => ?_, h.queue⟩
  · exact List.forall_mem_map.mpr fun c hc => activated_index (c := c) ▸ h.table.index c hc
  · exact List.forall_mem_map.mpr fun c hc => activated_key (c := c) ▸ h.table.filed c hc
  · refine List.pairwise_map.mpr (h.table.own.imp fun hab => ?_)
    simpa only [OwnApart, isOwn_iff, ne_eq, activated_heard, activated_key, activated_index] using hab
  · refine List.pairwise_map.mpr (h.table.heard.imp fun hab => ?_)
    simpa only [HeardApart, activated_heard, activated_key, activated_index, activated_claimant] using hab
  · exact List.nodup_append.mpr ⟨h.listed.once, List.nodup_singleton l,
      fun a ha b hb hab => hunlisted (List.mem_singleton.mp hb ▸ hab ▸ ha)⟩
  · rcases List.mem_append.mp hx with hx | hx
    · exact hactive (h.listed.active x hx)
    · exact List.mem_singleton.mp hx ▸ hwon
  · obtain ⟨hbuilt, hnot, hheld⟩ := h.fragments e he x hx
    refine ⟨fun hin => ?_, fun hp => hnot (hpending hp), hheld.imp_left hactive⟩
    rcases List.mem_append.mp hin with hin | hin
    · exact hbuilt hin
    · exact hnot (List.mem_singleton.mp hin ▸ hl)

/-- A line filed under the key that took the place of its own (R89). -/
def BuildLine.rekeyed (old new : Key) (l : BuildLine) : BuildLine := { l with key := swapKey old new l.key }

/-- A claim entry filed under the key that took the place of its own (R89, R137). -/
def Claim.rekeyed (old new : Key) (c : Claim) : Claim := { c with key := swapKey old new c.key }

/-- A queued entry under the key that took the place of its own (R89, R105). -/
def Entry.rekeyed (old new : Key) (e : Entry) : Entry := { e with payload := e.payload.replaceKey old new }

section
variable {old new : Key}

theorem swapKey_injective {a b : Key} (ha : a ≠ new) (hb : b ≠ new) (h : swapKey old new a = swapKey old new b) : a = b := by
  unfold swapKey at h
  split at h <;> split at h
  · next h₁ h₂ => exact h₁.trans h₂.symm
  · exact absurd h.symm hb
  · exact absurd h ha
  · exact h

theorem rekeyed_injective {a b : BuildLine} (ha : a.key ≠ new) (hb : b.key ≠ new)
    (h : a.rekeyed old new = b.rekeyed old new) : a = b := by
  obtain ⟨hkey, hindex⟩ := BuildLine.mk.inj h
  cases a; cases b
  exact congr (congrArg _ (swapKey_injective ha hb hkey)) hindex

theorem rekeyed_entry_line (e : Entry) : (e.rekeyed old new).line = e.line.map (BuildLine.rekeyed old new) := by
  cases e with
  | mk payload => cases payload <;> rfl

theorem rekeyed_entry_last (e : Entry) : (e.rekeyed old new).isLastFragment = e.isLastFragment := by
  cases e with
  | mk payload => cases payload <;> rfl

theorem rekeyed_entry_kind (e : Entry) : (e.rekeyed old new).payload.kind = e.payload.kind := by
  cases e with
  | mk payload => cases payload <;> rfl

/-- Off the wire every entry takes the new key at once (R105). -/
theorem requestEntries_rekeyed (hoff : ∀ e ∈ q, e.onWire = false) :
    requestEntries (fun _ => true) (.replaceKey old new) q = q.map (Entry.rekeyed old new) := by
  rw [requestEntries, ← List.filterMap_eq_map]
  refine List.filterMap_congr fun e he => ?_
  simp only [if_true, Entry.take, hoff e he, Bool.false_eq_true, if_false]
  rfl

/-- Off the wire an entry with a fragment is of an ACTIVE line. -/
theorem Transfers.active_of_off (h : Transfers filed claims build q) (hoff : ∀ e ∈ q, e.onWire = false) {e : Entry}
    (he : e ∈ q) {l : BuildLine} (hl : e.line = some l) : ActiveIn claims l :=
  (h.fragments e he l hl).held.resolve_right fun hw => by simp [hoff e he] at hw

/-- A key that nothing is filed under takes the place of another everywhere (R89, R105, R137, R142). -/
theorem Transfers.rekey (h : Transfers filed claims build q) (hoff : ∀ e ∈ q, e.onWire = false)
    (hnew : ¬ filed new) (hkeys : ∀ k, filed k → filed' (swapKey old new k)) :
    Transfers filed' (claims.map (Claim.rekeyed old new)) (build.map (BuildLine.rekeyed old new))
      (q.map (Entry.rekeyed old new)) := by
  have hkey {c : Claim} (hc : c ∈ claims) : c.key ≠ new := fun hk => hnew (hk ▸ h.table.filed c hc)
  have hactiveKey {l : BuildLine} (hl : ActiveIn claims l) : l.key ≠ new := by
    obtain ⟨c, hc, -, rfl⟩ := hl
    exact hkey hc
  have hactive {l : BuildLine} (hl : ActiveIn claims l) :
      ActiveIn (claims.map (Claim.rekeyed old new)) (l.rekeyed old new) := by
    obtain ⟨c, hc, hs, rfl⟩ := hl
    exact ⟨_, List.mem_map_of_mem hc, hs, rfl⟩
  have hfragment {e : Entry} (he : e ∈ q) {l : BuildLine} (hl : e.line = some l) : l.key ≠ new :=
    hactiveKey (h.active_of_off hoff he hl)
  refine ⟨⟨?_, ?_, ?_, ?_⟩, ⟨?_, ?_⟩, List.forall_mem_map.mpr fun e he l' hl' => ?_, ⟨?_, ?_, ?_⟩⟩
  · exact List.forall_mem_map.mpr h.table.index
  · exact List.forall_mem_map.mpr fun c hc => hkeys c.key (h.table.filed c hc)
  · exact List.pairwise_map.mpr (h.table.own.imp_of_mem fun ha hb hab hao hbo hk =>
      hab hao hbo (swapKey_injective (hkey ha) (hkey hb) hk))
  · exact List.pairwise_map.mpr (h.table.heard.imp_of_mem fun ha hb hab has hbs hk =>
      hab has hbs (swapKey_injective (hkey ha) (hkey hb) hk))
  · exact List.pairwise_map.mpr (h.listed.once.imp_of_mem fun ha hb hab heq =>
      hab (rekeyed_injective (hactiveKey (h.listed.active _ ha)) (hactiveKey (h.listed.active _ hb)) heq))
  · exact List.forall_mem_map.mpr fun l hl => hactive (h.listed.active l hl)
  · rw [rekeyed_entry_line] at hl'
    obtain ⟨l, hl, rfl⟩ := Option.map_eq_some_iff.mp hl'
    obtain ⟨hbuilt, hwon, -⟩ := h.fragments e he l hl
    refine ⟨fun hb => ?_, ?_, .inl (hactive (h.active_of_off hoff he hl))⟩
    · obtain ⟨x, hx, heq⟩ := List.mem_map.mp hb
      exact hbuilt (rekeyed_injective (hactiveKey (h.listed.active x hx)) (hfragment he hl) heq ▸ hx)
    · rintro ⟨_, hc', hs, heq⟩
      obtain ⟨c, hc, rfl⟩ := List.mem_map.mp hc'
      exact hwon ⟨c, hc, hs, rekeyed_injective (a := c.line) (hkey hc) (hfragment he hl) heq⟩
  · refine List.pairwise_map.mpr (h.queue.order.imp_of_mem fun {d e} hd he hde l hdl hel => ?_)
    rw [rekeyed_entry_line] at hdl hel
    obtain ⟨a, ha, rfl⟩ := Option.map_eq_some_iff.mp hdl
    obtain ⟨b, hb, heq⟩ := Option.map_eq_some_iff.mp hel
    obtain rfl := rekeyed_injective (hfragment he hb) (hfragment hd ha) heq
    rw [rekeyed_entry_last]
    exact hde b ha hb
  · refine List.pairwise_map.mpr (h.queue.oldest.imp fun hde hw => ?_)
    rw [rekeyed_entry_kind, rekeyed_entry_kind]
    exact hde hw
  · exact List.forall_mem_map.mpr h.queue.waiting

end

/-! ### A frame starts (R101, R103) -/

/-- The entry offered is the first of its class (R103). -/
theorem offeredPlace_first {n : Nat} (h : offeredPlace q = some n) :
    ∃ hn : n < q.length, ∀ i (hi : i < n), kindClass q[i].payload.kind ≠ kindClass q[n].payload.kind := by
  obtain ⟨c, hc⟩ : ∃ c : BitVec 2, q.findIdx? (fun e => kindClass e.payload.kind == c) = some n := by
    simp only [offeredPlace, Option.or_eq_some_iff] at h
    rcases h with h | ⟨-, h | ⟨-, h | ⟨-, h⟩⟩⟩ <;> exact ⟨_, h⟩
  obtain ⟨hn, hclass, hfirst⟩ := List.findIdx?_eq_some_iff_getElem.mp hc
  refine ⟨hn, fun i hi heq => ?_⟩
  have hbefore := hfirst i hi
  rw [heq] at hbefore
  exact hbefore hclass

/-- The entry offered goes on the wire when none is there (R101, R103). -/
theorem Transfers.start (h : Transfers filed claims build q) (hoff : ∀ e ∈ q, e.onWire = false) {n : Nat}
    (hn : offeredPlace q = some n) :
    Transfers filed claims build (q.modify n (fun e => { e with onWire := true })) := by
  obtain ⟨_, hfirst⟩ := offeredPlace_first hn
  have hentry {e : Entry} (he : e ∈ q.modify n (fun e => { e with onWire := true })) :
      e ∈ q ∨ ∃ d ∈ q, e = { d with onWire := true } := by
    obtain ⟨i, hi, rfl⟩ := List.mem_iff_getElem.mp he
    rw [List.length_modify] at hi
    rw [List.getElem_modify]
    split
    · exact .inr ⟨q[i], List.getElem_mem hi, rfl⟩
    · exact .inl (List.getElem_mem hi)
  refine ⟨h.table, h.listed, fun e he l hl => ?_, ⟨?_, ?_, fun e he => ?_⟩⟩
  · rcases hentry he with he | ⟨d, hd, rfl⟩
    · exact h.fragments e he l hl
    · exact { h.fragments d hd l hl with held := .inl (h.active_of_off hoff hd hl) }
  · refine List.pairwise_iff_getElem.mpr fun i j hi hj hij l => ?_
    rw [List.length_modify] at hi hj
    have hold := List.pairwise_iff_getElem.mp h.queue.order i j hi hj hij l
    simp only [List.getElem_modify]
    split <;> split <;> exact hold
  · refine List.pairwise_iff_getElem.mpr fun i j hi hj hij hw => ?_
    rw [List.length_modify] at hi hj
    simp only [List.getElem_modify] at hw ⊢
    split at hw
    · next hnj =>
      subst hnj
      rw [if_neg (by omega)]
      simpa using hfirst i hij
    · rw [hoff _ (List.getElem_mem hj)] at hw
      cases hw
  · rcases hentry he with he | ⟨d, hd, rfl⟩
    · exact h.queue.waiting e he
    · exact h.queue.waiting d hd

end

/-! ## Acts that spare the transfers -/

/-- What has made `s` of `o` spares the transfers: claim table, build list and role stand, keys filed stay filed, plain frames are queued. -/
structure Spares (o s : State) : Prop where
  claims : s.xen.claims = o.xen.claims
  build : s.xen.build = o.xen.build
  role : s.slc.role = o.slc.role
  filed : ∀ k, Filed o k → Filed s k
  queue : ∃ new, s.slc.queue = o.slc.queue ++ new ∧ ∀ e ∈ new, e.Plain

section
variable {o s u : State}

theorem Spares.refl (s : State) : Spares s s := ⟨rfl, rfl, rfl, fun _ => id, [], by simp⟩

theorem Spares.trans (h : Spares o s) (h' : Spares s u) : Spares o u where
  claims := h'.claims.trans h.claims
  build := h'.build.trans h.build
  role := h'.role.trans h.role
  filed k hk := h'.filed k (h.filed k hk)
  queue := by
    obtain ⟨a, ha, hap⟩ := h.queue
    obtain ⟨b, hb, hbp⟩ := h'.queue
    exact ⟨a ++ b, by rw [hb, ha, List.append_assoc], fun e he => (List.mem_append.mp he).elim (hap e) (hbp e)⟩

theorem filed_congr (h : u.cst.slots = s.cst.slots) (k : Key) : Filed u k ↔ Filed s k := by
  simp only [Filed, recordAt_congr h]

/-- An act that leaves slots, claim table, build list, role and queue. -/
theorem Spares.aside (h : Spares o s) (slots : u.cst.slots = s.cst.slots := by rfl)
    (claims : u.xen.claims = s.xen.claims := by rfl) (build : u.xen.build = s.xen.build := by rfl)
    (role : u.slc.role = s.slc.role := by rfl) (queue : u.slc.queue = s.slc.queue := by rfl) : Spares o u :=
  h.trans ⟨claims, build, role, fun k => (filed_congr slots k).mpr, [], by simpa using queue⟩

/-- A record put in a slot that is FREE or carries the same key. -/
theorem Spares.setChart (h : Spares o s) {i : SlotNo} {d : Chart} (hd : ∀ c, recordAt s i = some c → d.key = c.key) :
    Spares o (setChart i (some d) s) := by
  refine h.trans ⟨rfl, rfl, rfl, fun k ⟨j, c, hc, hk⟩ => ?_, [], by simp⟩
  by_cases hij : i = j
  · subst hij
    exact ⟨i, d, recordAt_setChart_same .., (hd c hc).trans hk⟩
  · exact ⟨j, c, by rwa [recordAt_setChart, if_neg hij], hk⟩

theorem Spares.revise (h : Spares o s) {i : SlotNo} {c d : Chart} (hc : recordAt s i = some c) (hd : d.key = c.key) :
    Spares o (Machine.setChart i (some d) s) :=
  h.setChart fun _ hother => Option.some.inj (hc.symm.trans hother) ▸ hd

theorem Spares.install (h : Spares o s) {i : SlotNo} (hfree : recordAt s i = none) (d : Chart) :
    Spares o (installChart i d s) :=
  Spares.aside (h.setChart (d := d) fun c hc => by rw [hfree] at hc; cases hc)

theorem Spares.updateChart (h : Spares o s) {i : SlotNo} {f : Chart → Chart} (hf : ∀ c, (f c).key = c.key) :
    Spares o (updateChart i f s) := by
  unfold Machine.updateChart
  split
  · exact h
  · next c hc => exact h.revise hc (hf c)

theorem Spares.bump (h : Spares o s) (n : Fin 16) (k : Nat) : Spares o (bump n k s) := h.aside
theorem Spares.setLfr (h : Spares o s) (f : Lfr) : Spares o (setLfr f s) := h.aside
theorem Spares.setLcu (h : Spares o s) (l : Lcu) : Spares o (setLcu l s) := h.aside
theorem Spares.setOpenReq (h : Spares o s) (i : SlotNo) (r : OpenRequest) : Spares o (setOpenReq i r s) := h.aside
theorem Spares.setPeer (h : Spares o s) (st : Station) (p : Option Peer) : Spares o (setPeer st p s) := h.aside
theorem Spares.setAssemblies (h : Spares o s) (a : List Assembly) : Spares o (setAssemblies a s) := h.aside

theorem Spares.advance (h : Spares o s) (t : Nat) : Spares o (advance t s) :=
  h.aside (by simp) (by simp) (by simp) (by simp) (by simp)

/-- A plain frame is queued, or refused (R104). -/
theorem Spares.enqueue (h : Spares o s) {e : Entry} (he : e.Plain) : Spares o (enqueue e s).1 := by
  unfold Machine.enqueue
  split
  · exact h.trans ⟨rfl, rfl, rfl, fun _ => id, [e], rfl, by simpa using he⟩
  · exact h.bump 13 1

theorem Spares.raiseNote (h : Spares o s) (n : Nat) (k : Option Key) (d : BitVec 16) : Spares o (raiseNote n k d s) := by
  unfold Machine.raiseNote
  split
  · exact h.enqueue (newEntry_plain (by rfl) _)
  · exact h

theorem Spares.queueOpen (h : Spares o s) (owner : Block) (i : SlotNo) : Spares o (queueOpen owner i s) := by
  unfold Machine.queueOpen
  split
  · exact h
  · exact (h.enqueue (openEntry_plain ..)).setOpenReq i _

/-- A run over a list spares the transfers when each of its acts does. -/
theorem Spares.foldl {α : Type} {act : State → α → State} (hact : ∀ a {s}, Spares o s → Spares o (act s a)) (l : List α)
    {s : State} (h : Spares o s) : Spares o (l.foldl act s) := by
  induction l generalizing s with
  | nil => exact h
  | cons a rest ih => exact ih (hact a h)

theorem Spares.ite {p : Prop} [Decidable p] {a b : State} (ha : Spares o a) (hb : Spares o b) :
    Spares o (if p then a else b) := by
  split
  · exact ha
  · exact hb

/-! ### The chart store -/

theorem Spares.enterHeld (h : Spares o s) (i : SlotNo) (d : Nat) : Spares o (enterHeld i d s) := by
  unfold Machine.enterHeld
  split
  · exact h
  · next hc => exact (h.revise hc (by rfl)).raiseNote _ _ _

theorem Spares.testComplete (h : Spares o s) (i : SlotNo) : Spares o (testComplete i s) := by
  unfold Machine.testComplete
  split
  · exact h
  · exact .ite (h.enterHeld i 1) h

theorem Spares.closeSlot (h : Spares o s) (i : SlotNo) (r : CloseReason) : Spares o (closeSlot i r s) := by
  unfold Machine.closeSlot
  split
  · exact h
  · next c hc =>
    refine .ite h (.ite ?_ ?_)
    · exact ((h.revise hc (by rfl)).setOpenReq i .nothing).enterHeld i 3
    · exact (((h.revise hc (by rfl)).setOpenReq i .nothing).raiseNote _ _ _).testComplete i

theorem Spares.storeCopy (h : Spares o s) {i : SlotNo} {c d : Chart} (hc : recordAt s i = some c) (hd : d.key = c.key)
    (old : Option LineEntry) (copy : Copy) (page : Nat) (rest : List Nat) :
    Spares o (storedCopy i d old copy page rest s) := by
  refine h.trans ⟨?_, ?_, ?_, fun k ⟨j, e, he, hk⟩ => ?_, [], ?_⟩
  case refine_4 =>
    by_cases hij : i = j
    · subst hij
      exact ⟨i, d, by rw [recordAt_stored, if_pos rfl], hd.trans (Option.some.inj (hc.symm.trans he) ▸ hk)⟩
    · exact ⟨j, e, by rwa [recordAt_stored, if_neg hij], hk⟩
  all_goals
    unfold storedCopy
    dsimp only
    split <;> simp

theorem Spares.mergeOffer (h : Spares o s) (i : SlotNo) (k : Key) (j : Nat) (copy : Copy) :
    Spares o (mergeOffer i k j copy s) := by
  cases hc : recordAt s i with
  | none => simpa only [Machine.mergeOffer, hc] using h
  | some c =>
    cases hk : c.answersTo k with
    | false => rwa [mergeOffer_unanswered hc hk]
    | true =>
      have htouched : Spares o (Machine.setChart i (some { c with lastReference := s.now }) s) := h.revise hc (by rfl)
      by_cases hb : copy.beats s.ssv.boot.margin (mapGet c.lineMap j)
      · rw [mergeOffer_beats hc hk hb]
        dsimp only
        split
        · unfold poolEmptyDrop
          exact .ite (htouched.bump 12 1) ((htouched.bump 12 1).aside.raiseNote _ _ _)
        · rw [storeCopy_eq]
          exact (htouched.storeCopy (recordAt_setChart_same ..) (by rfl) _ _ _ _).testComplete i
      · rw [mergeOffer_surplus hc hk hb]
        dsimp only
        split
        · exact htouched.bump 13 1
        · exact htouched

theorem Spares.commitCopy (h : Spares o s) (i : SlotNo) (index : Nat) (copy : Copy) :
    Spares o (commitCopy i index copy s) := by
  unfold Machine.commitCopy
  split
  · exact h.bump 13 1
  · next hc => exact .ite ((h.revise hc (by rfl)).mergeOffer _ _ _ _) (h.bump 13 1)

theorem Spares.bindSlot (h : Spares o s) (i : SlotNo) (offset : Int) (t : Nat) : Spares o (bindSlot i offset t s) := by
  unfold Machine.bindSlot
  split
  · exact h
  · next hc => exact (h.revise hc (by rfl)).raiseNote _ _ _

theorem announce_key (n : Nat) (c : Chart) : (c.announce n).key = c.key := by rw [announce_eq]

theorem Spares.endLocalImage (h : Spares o s) (i : SlotNo) (reason : CloseReason) (highest : Option Nat) :
    Spares o (endLocalImage i reason highest s) := by
  cases hc : recordAt s i with
  | none => simpa only [Machine.endLocalImage, hc] using h
  | some c =>
    rw [endLocalImage_eq hc]
    refine (Spares.revise (h.enqueue (newEntry_plain (by rfl) _)) (c := c) ?_ (by rfl)).closeSlot i reason
    exact (recordAt_congr (by simp) i).trans hc

/-! ### The framer and the level port -/

theorem Spares.commitLine (h : Spares o s) (l : TailLine) : Spares o (commitLine l s) := by
  unfold Machine.commitLine
  dsimp only
  split
  · exact (h.setLfr _).bump 13 1
  · exact (h.setLfr _).commitCopy _ _ _

theorem Spares.setTail (h : Spares o s) (tail : List TailLine) : Spares o (setTail tail s) := h.setLfr _

theorem Spares.commitDue (pos : Position) (tail : List TailLine) {s : State} (h : Spares o s) :
    Spares o (commitDue pos tail s) := by
  induction tail generalizing s with
  | nil => exact h.setTail _
  | cons l rest ih => exact .ite (ih (h.commitLine l)) (h.setTail _)

theorem Spares.commitTail (h : Spares o s) (keep : TailLine → Bool) : Spares o (commitTail keep s) :=
  (Spares.foldl (fun l _ hs => hs.commitLine l) (s.lfr.tail.filter keep) h).setTail _

theorem Spares.finishImage (h : Spares o s) (reason : CloseReason) (seen : Bool) : Spares o (finishImage reason seen s) := by
  have htold : Spares o (match s.lfr.bound with
      | none => s
      | some i => Machine.endLocalImage i reason s.lfr.highest s) := by
    split
    · exact h
    · exact h.endLocalImage _ _ _
  exact (htold.raiseNote _ _ _).setLfr _

theorem Spares.endByTone (h : Spares o s) (reason : CloseReason) (p : Position) (seen : Bool) :
    Spares o (endByTone reason p seen s) := (h.commitTail _).finishImage _ _

theorem Spares.endByFadeOrLimit (h : Spares o s) (reason : CloseReason) : Spares o (endByFadeOrLimit reason s) :=
  (h.commitTail _).finishImage _ _

theorem Spares.joinTail (h : Spares o s) (l : LineInProgress) : Spares o (joinTail l s) := by
  have hroom : Spares o (makeRoom (Machine.bump 0 1 s)) := by
    unfold Machine.makeRoom
    split
    · exact h.bump 0 1
    · exact .ite (((h.bump 0 1).commitLine _).setTail _) (h.bump 0 1)
  exact hroom.setTail _

theorem Spares.closeLine (h : Spares o s) (l : LineInProgress) : Spares o (closeLine l s) := by
  rw [closeLine_eq]
  exact .ite (((h.joinTail l).setLfr _).endByFadeOrLimit _) ((h.joinTail l).setLfr _)

theorem Spares.imageWord (h : Spares o s) (w : HeardWord) : Spares o (imageWord w s) := by
  unfold Machine.imageWord
  split
  · next l _ _ =>
    have hcut : Spares o (if isBefore w.pos l.next then s else Machine.closeLine l s) := .ite h (h.closeLine l)
    dsimp only
    split
    · exact hcut
    · exact (hcut.setLfr _).commitDue w.pos _
  · exact h

theorem Spares.imageFade (h : Spares o s) (faded : Bool) : Spares o (imageFade faded s) := by
  unfold Machine.imageFade
  refine .ite (h.setLfr _) (.ite (h.setLfr _) ?_)
  split
  · exact h.endByFadeOrLimit _
  · exact (h.setLfr _).raiseNote _ _ _
  · exact h.setLfr _

theorem Spares.imageReport (h : Spares o s) (r : WindowReport) : Spares o (imageReport r s) := by
  unfold Machine.imageReport
  split
  · exact h.endByTone _ _ _
  · exact h.endByTone _ _ _
  · exact .ite (h.endByTone _ _ _) (h.endByTone _ _ _)
  · exact h.imageFade _

theorem Spares.framerReport (h : Spares o s) (r : WindowReport) : Spares o (framerReport r s) := by
  unfold Machine.framerReport
  split
  · exact .ite (h.setLfr _) h
  · exact .ite (h.setLfr _) (.ite (h.setLfr _) h)
  · exact h.imageReport r

theorem Spares.closeWindow (h : Spares o s) (first : Position) : Spares o (closeWindow first s) := by
  have hmarked (b : BootFields) (l : Lcu) : Spares o (windowMarks b l s) := by
    have hfaded : Spares o (countFaded b l.acc s) := .ite (h.bump _ _) h
    have hnoted : Spares o (noteReset (tuneWindow b l.acc l).2 (countFaded b l.acc s)) := by
      unfold noteReset
      split
      · exact hfaded
      · exact hfaded.raiseNote _ _ _
    exact .ite ((hnoted.bump 14 1).raiseNote _ _ _) hnoted
  rw [closeWindow_eq]
  exact ((hmarked _ _).setLcu _).framerReport _

/-! ### Heard frames, timers and boot -/

theorem Spares.setAllDirty (h : Spares o s) : Spares o (setAllDirty s) :=
  Spares.foldl (fun _ _ hs => hs.updateChart fun _ => by rfl) allSlots h

theorem Spares.markPresent (h : Spares o s) (sender : Station) (stamp : Nat) : Spares o (markPresent sender stamp s) := by
  unfold Machine.markPresent
  split
  · exact h.setPeer _ _
  · exact .ite (h.setPeer _ _).setAllDirty (h.setPeer _ _)

theorem Spares.refreshOf (h : Spares o s) (p : Payload) (stamp : Nat) : Spares o (refreshOf p stamp s) := by
  unfold Machine.refreshOf refreshReference
  split
  · split
    · exact h
    · exact h.updateChart fun _ => by rfl
  · exact h

theorem Spares.recordAlias (h : Spares o s) (i : SlotNo) (heard : Key) : Spares o (recordAlias i heard s) := by
  unfold Machine.recordAlias
  split
  · exact h
  · next c hc =>
    have hnamed : Spares o (Machine.setChart i (some { c with otherKey := some heard }) s) := h.revise hc (by rfl)
    exact .ite h (.ite ((hnamed.raiseNote _ _ _).queueOpen _ _) (hnamed.raiseNote _ _ _))

theorem Spares.judgeClose (h : Spares o s) (k : Key) (length : BitVec 16) (reason : Byte) :
    Spares o (judgeClose k length reason s) := by
  unfold Machine.judgeClose
  split
  · exact h.bump 5 1
  · refine .ite (h.bump 5 1) ?_
    split
    · exact h
    · have htold {i : SlotNo} := h.updateChart (i := i) (announce_key length.toNat)
      dsimp only
      split
      · exact .ite (htold.closeSlot _ _) htold
      · exact htold

theorem Spares.writeCodes (i : SlotNo) (r : Receiver) (codes : List (BitVec 4)) {j : Nat} {s : State} (h : Spares o s) :
    Spares o (writeCodes i r j codes s) := by
  induction codes generalizing j s with
  | nil => exact h
  | cons c rest ih => exact ih h.aside

theorem Spares.judgeTally (h : Spares o s) (sender : Station) (k : Key) (base : BitVec 16) (codes : List (BitVec 4)) :
    Spares o (judgeTally sender k base codes s) := by
  unfold Machine.judgeTally
  split
  · exact h
  · refine .ite (h.bump 5 1) ?_
    split
    · exact h
    · exact h.writeCodes _ _ _

theorem Spares.judgeRoster (h : Spares o s) (sender : Station) (kind tag : Byte) : Spares o (judgeRoster sender kind tag s) := by
  unfold Machine.judgeRoster
  split
  · exact h.bump 5 1
  · refine .ite ?_ (h.bump 5 1)
    split
    · exact h.setPeer _ _
    · exact h

theorem Spares.judgeAsk (h : Spares o s) (sender : Station) (target k : Byte) : Spares o (judgeAsk sender target k s) := by
  unfold Machine.judgeAsk
  refine .ite h ?_
  dsimp only
  split
  · exact h.enqueue (newEntry_plain (by rfl) _)
  · split
    · exact h
    · exact (h.updateChart fun _ => by rfl).enqueue (newEntry_plain (by rfl) _)

theorem Spares.declareAbsent (h : Spares o s) (st : Station) : Spares o (declareAbsent st s) := by
  unfold Machine.declareAbsent
  dsimp only
  split
  · exact Spares.raiseNote (h.setPeer st none).aside _ _ _
  · exact (h.setPeer st none).raiseNote _ _ _

theorem Spares.openCompletion (h : Spares o s) (e : Entry) (key : Key) (delay : BitVec 16) (sent : Bool) :
    Spares o (openCompletion e key delay sent s) := by
  unfold Machine.openCompletion
  split
  · exact .ite (h.raiseNote _ _ _) h
  · split
    · exact .ite (h.raiseNote _ _ _) h
    · have hsettled {i : SlotNo} {r : OpenRequest} {p : Prop} [Decidable p] :
        Spares o (if p then Machine.setOpenReq i r s else s) := .ite (h.setOpenReq i r) h
      exact .ite (hsettled.raiseNote _ _ _) hsettled

theorem Spares.queueTallies (i : SlotNo) (frames : Nat) (blocks : List Nat) {s : State} (h : Spares o s) :
    Spares o (queueTallies i frames blocks s) := by
  induction blocks generalizing frames s with
  | nil => cases frames <;> exact h
  | cons b rest ih =>
    cases frames with
    | zero => exact h
    | succ n =>
      unfold Machine.queueTallies
      split
      · exact h
      · have hasked {p : Payload} (hp : p.isLine = false) := h.enqueue (newEntry_plain hp .xen)
        exact .ite (ih n ((hasked (by rfl)).updateChart fun _ => by rfl)) (hasked (by rfl))

theorem Spares.tallyRound (h : Spares o s) : Spares o (tallyRound s) := by
  unfold Machine.tallyRound
  split
  · exact h
  · dsimp only
    split
    · exact h.aside
    · exact Spares.queueTallies _ _ _ h.aside

theorem Spares.wantExpiry (h : Spares o s) (i : SlotNo) (due : Nat) : Spares o (wantExpiry i due s) := by
  have hround {v : State} (hv : Spares o v) : Spares o (wantRound i v) := by
    unfold wantRound
    split
    · exact hv
    · split
      · exact hv
      · have hasked {p : Payload} (hp : p.isLine = false) := hv.enqueue (newEntry_plain hp .xen)
        exact .ite ((hasked (by rfl)).bump 11 1) (hasked (by rfl))
  have hresent {v : State} (hv : Spares o v) : Spares o (resendOpen i v) := by
    unfold resendOpen
    split
    · exact hv
    · exact .ite (hv.queueOpen _ _) hv
  exact hround (hresent (h.updateChart fun _ => by rfl))

theorem Spares.sweepOver (h : Spares o s) (i : SlotNo) : Spares o (sweepOver i s) := by
  unfold Machine.sweepOver
  split
  · exact h.enterHeld _ _
  · exact h.updateChart fun _ => by rfl

theorem Spares.bootStep (h : Spares o s) : Spares o (bootStep s) := by
  unfold Machine.bootStep freeBootBus
  split
  · exact h
  · refine .ite h.aside ?_
    split
    · exact h
    · exact .ite h.aside h.aside

theorem Spares.takeBootSteps (n : Nat) {s : State} (h : Spares o s) : Spares o (takeBootSteps n s) := by
  induction n generalizing s with
  | zero => exact h
  | succ n ih => exact ih h.bootStep

theorem Spares.idleStep (h : Spares o s) : Spares o (idleStep s) := by
  unfold Machine.idleStep
  split
  · exact h
  · exact h.bootStep
  · exact h.aside

end

/-! ## Acts on the transfers -/

/-- The transfers agree, the claim table is within its room, and nothing is on the wire while the SLC has no part in a frame. -/
structure Agreed (s : State) : Prop where
  room : s.xen.claims.length ≤ 64
  transfers : Transfers (Filed s) s.xen.claims s.xen.build s.slc.queue
  quiet : s.slc.role = .none → ∀ e ∈ s.slc.queue, e.onWire = false

section
variable {s u : State}

theorem Agreed.spared (h : Agreed s) (hu : Spares s u) : Agreed u := by
  obtain ⟨new, hqueue, hplain⟩ := hu.queue
  refine ⟨hu.claims ▸ h.room, ?_, fun hrole e he => ?_⟩
  · rw [hu.claims, hu.build, hqueue]
    exact h.transfers.spared hu.filed hplain
  · rw [hqueue] at he
    exact (List.mem_append.mp he).elim (h.quiet (hu.role ▸ hrole) e) fun hn => (hplain e hn).wire

theorem PagesWhole.congr (h : PagesWhole s) (hu : u.cst.pages = s.cst.pages) : PagesWhole u := by
  unfold PagesWhole
  rwa [hu]

/-- The agreement of `Transfers.prune`, of states. -/
theorem Agreed.pruned (h : Agreed s) {keep : Claim → Bool} {stay : BuildLine → Bool} {f : Entry → Option Entry}
    (hclaims : u.xen.claims = s.xen.claims.filter keep) (hbuild : u.xen.build = s.xen.build.filter stay)
    (hqueue : u.slc.queue = s.slc.queue.filterMap f) (hrole : u.slc.role = s.slc.role)
    (hkeys : ∀ c ∈ s.xen.claims, keep c = true → Filed s c.key → Filed u c.key)
    (hkeep : ∀ c, c.state = .active → stay c.line = true → keep c = true)
    (hf : ∀ e ∈ s.slc.queue, ∀ e', f e = some e' → e.Becomes e')
    (hgone : ∀ e ∈ s.slc.queue, ∀ e', f e = some e' → ∀ l, e.line = some l → stay l = false →
      e'.onWire = true ∧ .remove ∈ e'.waiting) : Agreed u where
  room := by
    rw [hclaims]
    exact (List.length_filter_le ..).trans h.room
  transfers := by
    rw [hclaims, hbuild, hqueue]
    exact h.transfers.prune (fun c hc hk => hkeys c hc hk (h.transfers.table.filed c hc)) (fun c _ => hkeep c) hf hgone
  quiet hnone e' he' := by
    rw [hqueue] at he'
    obtain ⟨e, he, hfe⟩ := List.mem_filterMap.mp he'
    exact Bool.eq_false_iff.mpr fun hw =>
      Bool.false_ne_true ((h.quiet (hrole ▸ hnone) e he).symm.trans ((hf e he e' hfe).wire hw))

theorem request_becomes {sel : Entry → Bool} {r : Request} (hr : ∀ old new, r ≠ .replaceKey old new) {e e' : Entry}
    (h : (if sel e then e.take r else some e) = some e') : e.Becomes e' := by
  split at h
  · exact take_becomes hr h
  · cases h; exact .refl e

theorem request_leaves {sel : Entry → Bool} {e e' : Entry} (hsel : sel e = true)
    (h : (if sel e then e.take .remove else some e) = some e') : e'.onWire = true ∧ .remove ∈ e'.waiting :=
  take_remove (by rwa [if_pos hsel] at h)

/-- No ACTIVE entry leaves the claim table. -/
theorem Agreed.dropClaims (h : Agreed s) {sel : Claim → Bool} (hsel : ∀ c, sel c = true → c.state ≠ .active) :
    Agreed (dropClaims sel s) :=
  h.pruned (keep := fun c => !sel c) (stay := fun _ => true) (f := some) rfl (by simp) (by simp) rfl (fun _ _ _ hk => hk)
    (fun c hs _ => by simpa using fun hc => hsel c hc hs) (fun e _ e' he => Option.some.inj he ▸ .refl e)
    fun _ _ _ _ _ _ hstay => by cases hstay

/-- Requests to leave, or to give up lines of a CLAIM, keep the agreement (R105). -/
theorem Agreed.requested (h : Agreed s) (sel : Entry → Bool) {r : Request} (hr : ∀ old new, r ≠ .replaceKey old new) :
    Agreed (setQueue (requestEntries sel r s.slc.queue) s) :=
  h.pruned (keep := fun _ => true) (stay := fun _ => true) (by simp) (by simp) rfl rfl (fun _ _ _ hk => hk)
    (fun _ _ _ => rfl) (fun _ _ _ he => request_becomes hr he) fun _ _ _ _ _ _ hstay => by cases hstay

/-! ### Building (R143) -/

theorem heldCopy_length (hp : PagesWhole s) {k : Key} {j : Nat} {e : LineEntry} {p : Pixels}
    (h : heldCopy s k j = some (e, p)) : p.length = 1200 := by
  unfold heldCopy at h
  split at h
  · cases h
  · split at h
    · cases h
    · split at h
      · cases h
      · cases h
        exact hp.read_length _

theorem enqueueGroup_taken {es : List Entry} (h : (enqueueGroup es s).2 = true) :
    (enqueueGroup es s).1 = setQueue (s.slc.queue ++ es) s := by
  unfold enqueueGroup at h ⊢
  split
  · rfl
  · next hn => rw [if_neg hn] at h; cases h

/-- The lines built leave the list in order and their fragments join the queue (R142, R143). -/
theorem Agreed.buildLines {l : List BuildLine} (h : Agreed (setBuild l s)) (hp : PagesWhole s) :
    Agreed (buildLines l s) ∧ (buildLines l s).xen.build ⊆ l ∧
      ∀ e ∈ (buildLines l s).slc.queue, e ∈ s.slc.queue ∨ ∃ b ∈ l, e.line = some b := by
  induction l generalizing s with
  | nil => exact ⟨h, by simp [Machine.buildLines], fun e he => .inl he⟩
  | cons b rest ih =>
    have hweaker {v : State} (hv : (Machine.buildLines rest v).xen.build ⊆ rest) :
      (Machine.buildLines rest v).xen.build ⊆ b :: rest := fun _ hx => List.mem_cons_of_mem b (hv hx)
    unfold Machine.buildLines
    split
    · obtain ⟨hagreed, hbuild, hqueue⟩ := ih ⟨h.room, h.transfers.unlist, h.quiet⟩ hp
      exact ⟨hagreed, hweaker hbuild, fun e he => (hqueue e he).imp_right fun ⟨x, hx, hl⟩ => ⟨x, List.mem_cons_of_mem b hx, hl⟩⟩
    · next e p hcopy =>
      obtain ⟨c, hc, -, hline⟩ := h.transfers.listed.active b List.mem_cons_self
      have hindex : b.index < 2048 := hline ▸ h.transfers.table.index c hc
      obtain ⟨hfresh, hlines, horder⟩ := lineFragments_entries b.key hindex e (heldCopy_length hp hcopy)
      dsimp only
      split
      · next htaken =>
        rw [enqueueGroup_taken htaken]
        generalize (lineFragments b.key b.index e p).map (fun p => newEntry p .xen) = new at hfresh hlines horder ⊢
        have hbuilt : Agreed (setBuild rest (setQueue (s.slc.queue ++ new) s)) :=
          ⟨h.room, h.transfers.build_head hfresh hlines horder, fun hrole x hx =>
            (List.mem_append.mp hx).elim (h.quiet hrole x) fun hn => (hfresh x hn).wire⟩
        obtain ⟨hagreed, hbuild, hqueue⟩ := ih hbuilt hp
        refine ⟨hagreed, hweaker hbuild, fun x hx => ?_⟩
        rcases hqueue x hx with hx | ⟨y, hy, hl⟩
        · exact (List.mem_append.mp hx).imp_right fun hn => ⟨b, List.mem_cons_self, hlines x hn⟩
        · exact .inr ⟨y, List.mem_cons_of_mem b hy, hl⟩
      · exact ⟨h, List.Subset.refl _, fun x hx => .inl hx⟩

theorem Agreed.tryBuild (h : Agreed s) (hp : PagesWhole s) : Agreed (tryBuild s) :=
  (Agreed.buildLines (l := s.xen.build) ⟨h.room, h.transfers, h.quiet⟩ hp).1

/-- Building brings no line to the build list, and fragments of listed lines alone to the queue (R142, R143). -/
theorem Agreed.tryBuild_lines (h : Agreed s) (hp : PagesWhole s) : (Machine.tryBuild s).xen.build ⊆ s.xen.build ∧
    ∀ e ∈ (Machine.tryBuild s).slc.queue, e ∈ s.slc.queue ∨ ∃ b ∈ s.xen.build, e.line = some b :=
  (Agreed.buildLines (l := s.xen.build) ⟨h.room, h.transfers, h.quiet⟩ hp).2

theorem Agreed.retryBuild (h : Agreed s) (hp : PagesWhole s) (before : State) : Agreed (retryBuild before s) := by
  rcases retryBuild_cases s before with hr | hr <;> rw [hr]
  · exact h.tryBuild hp
  · exact h

theorem Agreed.withdrawEntries (h : Agreed s) (hp : PagesWhole s) (sel : Entry → Bool) {r : Request}
    (hr : ∀ old new, r ≠ .replaceKey old new) : Agreed (withdrawEntries sel r s) :=
  (h.requested sel hr).retryBuild hp s

/-! ### Freeing a slot (R77, R134, R154) -/

theorem leavesWithSlot_line (i : SlotNo) (c : Chart) {e : Entry} {l : BuildLine} (h : e.line = some l) :
    leavesWithSlot i c e = c.answersTo l.key := by
  unfold Entry.line at h
  split at h
  · next hp => cases h; simp only [leavesWithSlot, hp]
  · cases h

theorem Agreed.freeSlot (h : Agreed s) (hp : PagesWhole s) (i : SlotNo) : Agreed (freeSlot i s) := by
  cases hc : recordAt s i with
  | none => simpa only [Machine.freeSlot, hc] using h
  | some c =>
    rw [freeSlot_eq hc]
    refine Agreed.retryBuild ?_ (hp.congr (by rfl)) s
    refine h.pruned (keep := fun d => !c.answersTo d.key) (stay := fun l => !c.answersTo l.key) rfl rfl rfl rfl ?_
      (fun _ _ hstay => hstay) (fun _ _ _ he => request_becomes (r := .remove) nofun he) fun e _ e' he l hl hstay => ?_
    · rintro d - hkeep ⟨j, x, hx, hkey⟩
      have hij : i ≠ j := by
        rintro rfl
        obtain rfl := Option.some.inj (hc.symm.trans hx)
        simp [← hkey, answersTo_key] at hkeep
      exact ⟨j, x, (recordAt_setChart (returnPages c.pages s) i j none).trans (by rw [if_neg hij]; exact hx), hkey⟩
    · refine request_leaves ?_ he
      rw [leavesWithSlot_line i c hl]
      simpa using hstay

theorem Agreed.secondChance (n : Nat) {s : State} (h : Agreed s) (hp : PagesWhole s) : Agreed (secondChance n s).1 := by
  induction n generalizing s with
  | zero => exact h
  | succ n ih =>
    have hmoved : Spares s (pointerMoved s) := (Spares.refl s).aside
    rcases secondChance_visit n s with hv | ⟨c, hc, hv⟩ | ⟨c, hc, hv⟩ <;> rw [hv]
    · exact ih (h.spared hmoved) (hp.congr rfl)
    · exact ih (h.spared (hmoved.revise hc (by rfl))) (hp.congr rfl)
    · exact ((h.spared hmoved).freeSlot (hp.congr rfl) _).spared ((Spares.refl _).raiseNote _ _ _)

theorem Agreed.findSlot (h : Agreed s) (hp : PagesWhole s) : Agreed (findSlot s).1 := by
  unfold Machine.findSlot
  split
  · exact h
  · exact h.secondChance 5 hp

/-! ### The level port (R28, R59) -/

theorem Agreed.requestSlot (h : Agreed s) (hp : PagesWhole s) (r : Rate) (t : Nat) : Agreed (requestSlot r t s).1 := by
  unfold Machine.requestSlot
  split
  · exact h.spared ((Spares.refl s).bindSlot _ _ _)
  · have hfound := Spares.refl (Machine.findSlot s).1
    dsimp only
    split
    · exact (h.findSlot hp).spared ((hfound.raiseNote _ _ _).bump 13 1)
    · next i hi => exact (h.findSlot hp).spared (Spares.queueOpen (hfound.install (recordAt_findSlot hi) _).aside _ _)

theorem Agreed.enterImage (h : Agreed s) (hp : PagesWhole s) (r : Rate) : Agreed (enterImage r s) := by
  cases hlast : s.lfr.pulses.getLast? with
  | none => simpa only [Machine.enterImage, hlast] using h
  | some last =>
    rw [enterImage_eq hlast]
    have hanswered : Agreed (entryAnswer r last s).1 :=
      (h.spared ((Spares.refl s).setLfr (enteredFramer last s.now s.lfr))).requestSlot (hp.congr rfl) r s.now
    exact hanswered.spared (Spares.foldl (fun w _ hu => hu.imageWord w) _ ((Spares.refl _).setLfr _))

theorem Agreed.framerWord (h : Agreed s) (hp : PagesWhole s) (w : HeardWord) : Agreed (framerWord w s) := by
  have hdetected : Agreed (setLfr (detectPulse w s.now s.lfr) s) := h.spared ((Spares.refl s).setLfr _)
  have hpages : PagesWhole (setLfr (detectPulse w s.now s.lfr) s) := hp.congr rfl
  unfold Machine.framerWord
  dsimp only
  split
  · exact hdetected.spared ((Spares.refl _).imageWord w)
  · unfold decideMiss takeMiss
    split
    · split
      · split
        · exact hdetected.spared ((Spares.refl _).setLfr _)
        · split
          · exact hdetected.enterImage hpages _
          · exact hdetected.spared ((Spares.refl _).setLfr _)
      · exact hdetected
    · exact hdetected

theorem Agreed.takeWord (h : Agreed s) (hp : PagesWhole s) (bits : BitVec 16) : Agreed (takeWord bits s) := by
  have hheard := (h.spared ((Spares.refl s).setLcu (lcuWord (handOff bits s.lcu) s.lcu))).framerWord (hp.congr rfl)
    (handOff bits s.lcu)
  rcases Nat.lt_or_ge (s.lcu.windowCount + 1) 1200 with hc | hc
  · rwa [takeWord_inside hc]
  · rw [takeWord_closing hc]
    exact hheard.spared ((Spares.refl _).closeWindow _)

end

section
variable {s u : State}

/-! ### A slot's key replaced (R89, R105, R137) -/

theorem replaceKeyEverywhere_eq (old new : Key) (s : State) : replaceKeyEverywhere old new s =
    setBuild (s.xen.build.map (BuildLine.rekeyed old new)) (setClaims (s.xen.claims.map (Claim.rekeyed old new))
      (setQueue (requestEntries (fun _ => true) (.replaceKey old new) s.slc.queue) s)) := rfl

/-- A slot takes a key no slot holds, and all that is filed under its old one goes with it (R89). -/
theorem Agreed.rekey (h : Agreed s) (hrole : s.slc.role = .none) {i : SlotNo} {c d : Chart} (hc : recordAt s i = some c)
    (hk : keyHeld s d.key = false) : Agreed (replaceKeyEverywhere c.key d.key (setChart i (some d) s)) := by
  have hoff := h.quiet hrole
  have hunfiled : ¬ Filed s d.key := fun ⟨j, e, he, hkey⟩ => key_ne_of_unheld hk he hkey
  have hkeys (k : Key) : Filed s k → Filed (setChart i (some d) s) (swapKey c.key d.key k) := by
    rintro ⟨j, e, he, rfl⟩
    unfold swapKey
    split
    · exact ⟨i, d, recordAt_setChart_same .., rfl⟩
    · next hne =>
      have hij : i ≠ j := by
        rintro rfl
        exact hne (congrArg Chart.key (Option.some.inj (he.symm.trans hc)))
      exact ⟨j, e, by rwa [recordAt_setChart, if_neg hij], rfl⟩
  have hqueue : requestEntries (fun _ => true) (.replaceKey c.key d.key) (setChart i (some d) s).slc.queue =
      s.slc.queue.map (Entry.rekeyed c.key d.key) := requestEntries_rekeyed hoff
  rw [replaceKeyEverywhere_eq, hqueue]
  exact ⟨by simpa using h.room, h.transfers.rekey hoff hunfiled hkeys, fun _ => List.forall_mem_map.mpr hoff⟩

theorem Agreed.withdrawOpen (h : Agreed s) (hp : PagesWhole s) (hrole : s.slc.role = .none) (i : SlotNo) (o tPeer : Int)
    {heard : Key} (hk : keyHeld s heard = false) : Agreed (withdrawOpen i o tPeer heard s) := by
  cases hc : recordAt s i with
  | none => simpa only [Machine.withdrawOpen, hc] using h
  | some c =>
    have hgone : Agreed (setOpenReq i .nothing (Machine.withdrawEntries (Entry.isOpenOf i c.key) .remove s)) :=
      (h.withdrawEntries hp _ (r := .remove) nofun).spared ((Spares.refl _).setOpenReq i .nothing)
    have hrecord : recordAt (setOpenReq i .nothing (Machine.withdrawEntries (Entry.isOpenOf i c.key) .remove s)) i = some c :=
      (recordAt_congr (by simp) i).trans hc
    simp only [Machine.withdrawOpen, hc, updateChart_eq hrecord]
    exact (hgone.rekey (d := { c with key := heard, offset := some o, peerTransition := some tPeer }) (by simpa using hrole) hrecord
      ((keyHeld_congr (by simp) heard).trans hk)).spared ((Spares.refl _).raiseNote _ _ _)

/-! ### Heard OPEN, DROP, WANT, CLAIM and LINE -/

theorem Agreed.judgeOpen (h : Agreed s) (hp : PagesWhole s) (hrole : s.slc.role = .none) (sender : Station) (stamp : Nat)
    (k : Key) (tag rate : Byte) (delay : BitVec 16) : Agreed (judgeOpen sender stamp k tag rate delay s) := by
  have hcounted : Agreed (countMalformed s) := h.spared ((Spares.refl s).bump 5 1)
  unfold Machine.judgeOpen
  split
  · exact hcounted
  · split
    · exact hcounted
    · split
      · exact h
      · next hknown =>
        unfold takeOpen
        split
        · exact h.withdrawOpen hp hrole _ _ _ (Bool.eq_false_iff.mpr (not_or.mp hknown).2)
        · split
          · exact h.spared ((Spares.refl s).recordAlias _ _)
          · unfold adoptChart
            dsimp only
            split
            · exact (h.findSlot hp).spared (((Spares.refl _).raiseNote _ _ _).bump 13 1)
            · next i hi => exact (h.findSlot hp).spared ((Spares.refl _).install (recordAt_findSlot hi) _)

theorem Agreed.judgeDrop (h : Agreed s) (hp : PagesWhole s) (k : Key) : Agreed (judgeDrop k s) := by
  unfold Machine.judgeDrop
  split
  · exact h
  · split
    · exact h
    · split
      · exact (h.freeSlot hp _).spared ((Spares.refl _).raiseNote _ _ _)
      · exact h

theorem claimed_eq_false_iff {claims : List Claim} {k : Key} {j : Nat} :
    claimed claims k j = false ↔ ∀ a ∈ claims, a.line ≠ ⟨k, j⟩ := by
  simp [claimed, Claim.line]

/-- Lines no entry stands for are claimed: own PENDING entries join the table (R135, R136). -/
theorem Agreed.claim (h : Agreed s) (hrole : s.slc.role = .none) {own : Receiver} {c : Chart} (hc : Filed s c.key)
    {base : Nat} {places : List Nat} (hrange : ∀ p ∈ places, base + p < 2048) (hapart : places.Pairwise (· < ·))
    (hnew : ∀ p ∈ places, claimed s.xen.claims c.key (base + p) = false) (hroom : s.xen.claims.length + places.length ≤ 64) :
    Agreed (setClaims (s.xen.claims ++ places.map (fun p => pendingClaim own c (base + p))) s) := by
  have hunclaimed {p : Nat} (hp : p ∈ places) {a : Claim} (ha : a ∈ s.xen.claims) : a.line ≠ ⟨c.key, base + p⟩ :=
    claimed_eq_false_iff.mp (hnew p hp) a ha
  refine ⟨by simpa using hroom, h.transfers.grow ⟨?_, ?_, ?_, ?_⟩ ?_, h.quiet⟩
  · exact List.forall_mem_append.mpr ⟨h.transfers.table.index, List.forall_mem_map.mpr hrange⟩
  · exact List.forall_mem_append.mpr ⟨h.transfers.table.filed, List.forall_mem_map.mpr fun _ _ => hc⟩
  · refine List.pairwise_append.mpr ⟨h.transfers.table.own, List.pairwise_map.mpr (hapart.imp fun hlt _ _ _ heq => ?_), ?_⟩
    · exact absurd (Nat.add_left_cancel heq) (Nat.ne_of_lt hlt)
    · intro a ha
      refine List.forall_mem_map.mpr fun p hp _ _ hkey hindex => hunclaimed hp ha ?_
      exact congr (congrArg BuildLine.mk hkey) hindex
  · refine List.pairwise_append.mpr ⟨h.transfers.table.heard, List.pairwise_map.mpr (hapart.imp fun _ hs => by cases hs), ?_⟩
    exact fun a _ => List.forall_mem_map.mpr fun p _ _ hs => by cases hs
  · refine List.forall_mem_map.mpr fun p hp _ e he hline => ?_
    obtain ⟨a, ha, -, hal⟩ := h.transfers.active_of_off (h.quiet hrole) he hline
    exact hunclaimed hp ha hal

theorem maskPlaces_pairwise (mask : BitVec 32) : (maskPlaces mask).Pairwise (· < ·) :=
  List.pairwise_lt_range.sublist List.filter_sublist

theorem Agreed.answerWant (h : Agreed s) (hrole : s.slc.role = .none) (i : SlotNo) {base : Nat} (hbase : base ≤ 2016)
    (mask : BitVec 32) (codes : List (BitVec 4)) : Agreed (answerWant i base mask codes s) := by
  unfold Machine.answerWant
  split
  · exact h
  · next c hc =>
    dsimp only
    generalize hplaces : (candidatePlaces s c base mask codes).take (Config.claimRoom - s.xen.claims.length) = places
    generalize (candidatePlaces s c base mask codes).length - places.length = dropped
    have hcounted : Spares s (bump 13 dropped s) := (Spares.refl s).bump 13 dropped
    split
    · exact h.spared hcounted
    · have hqueued := hcounted.enqueue
        (newEntry_plain (p := .claimF c.key (BitVec.ofNat 16 base) (lineMask places) (blockCodes c base)) rfl .xen)
      split
      · have hsub : places.Sublist (maskPlaces mask) := hplaces ▸ (List.take_sublist ..).trans List.filter_sublist
        have hlength : places.length ≤ 64 - s.xen.claims.length := hplaces ▸ List.length_take_le ..
        have hroom := h.room
        refine (h.spared hqueued).claim (by simpa using hrole) (hqueued.filed _ ⟨i, c, hc, rfl⟩) (fun p hp => ?_)
          ((maskPlaces_pairwise mask).sublist hsub) (fun p hp => ?_) ?_
        · have := maskPlaces_lt (hsub.subset hp)
          omega
        · have hcandidate : p ∈ candidatePlaces s c base mask codes := List.mem_of_mem_take (hplaces ▸ hp)
          simp only [candidatePlaces, List.mem_filter, Bool.and_eq_true, Bool.not_eq_true'] at hcandidate
          simpa using hcandidate.2.2
        · rw [hqueued.claims]
          omega
      · exact h.spared hqueued

theorem Agreed.judgeWant (h : Agreed s) (hrole : s.slc.role = .none) (k : Key) (base : BitVec 16) (mask : BitVec 32)
    (codes : List (BitVec 4)) (stations : BitVec 16) : Agreed (judgeWant k base mask codes stations s) := by
  unfold Machine.judgeWant
  split
  · exact h.spared ((Spares.refl s).bump 5 1)
  · next hbase =>
    have hrange : base.toNat ≤ 2016 := baseOk_le (by simpa using hbase)
    split
    · exact h
    · split
      · exact (h.spared ((Spares.refl s).updateChart fun _ => by rfl)).answerWant (by simpa using hrole) _ hrange _ _
      · exact h

theorem Agreed.yieldPending (h : Agreed s) (hp : PagesWhole s) (key : Key) (base place code : Nat) :
    Agreed (yieldPending key base place code s) := by
  unfold Machine.yieldPending
  split
  · exact h
  · split
    · exact h
    · have hdropped : Agreed (Machine.dropClaims (Claim.isPendingOf key (base + place)) s) :=
        h.dropClaims fun c hc hs => by simp [(isPendingOf_iff.mp hc).1] at hs
      exact (hdropped.withdrawEntries (hp.congr rfl) _ (r := .withdrawLines _) nofun).spared ((Spares.refl _).bump 9 1)

/-- A HEARD entry is made or renewed, so that none of the line and claimant stands twice (R137, R140). -/
theorem Agreed.recordHeard (h : Agreed s) {key : Key} (hkey : Filed s key) {index : Nat} (hindex : index < 2048)
    (r : Receiver) (stamp : Nat) : Agreed (recordHeard key index r stamp s) := by
  have hothers : Agreed (setClaims (s.xen.claims.filter (fun c => !c.isHeardOf key index r)) s) :=
    h.dropClaims fun c hc hs => by simp [Claim.isHeardOf, hs] at hc
  unfold Machine.recordHeard
  dsimp only
  split
  · next hroom =>
    refine ⟨(List.length_append ..).trans_le hroom, hothers.transfers.grow ⟨?_, ?_, ?_, ?_⟩ (by simp), hothers.quiet⟩
    · exact List.forall_mem_append.mpr ⟨hothers.transfers.table.index, by simpa using hindex⟩
    · exact List.forall_mem_append.mpr ⟨hothers.transfers.table.filed, List.forall_mem_singleton.mpr hkey⟩
    · exact List.pairwise_append.mpr ⟨hothers.transfers.table.own, List.pairwise_singleton _ _,
        fun a _ => List.forall_mem_singleton.mpr fun _ hown => by cases hown⟩
    · refine List.pairwise_append.mpr ⟨hothers.transfers.table.heard, List.pairwise_singleton _ _,
        fun a ha => List.forall_mem_singleton.mpr fun has _ hak hai har => ?_⟩
      have hkept := (List.mem_filter.mp ha).2
      simp only at hak hai har
      simp [Claim.isHeardOf, has, hak, hai, har] at hkept
  · exact h.spared ((Spares.refl s).bump 13 1)

theorem Agreed.takeClaimLines (i : SlotNo) {key : Key} (r : Receiver) {base : Nat} (hbase : base ≤ 2016) (stamp : Nat)
    (codes : List (BitVec 4)) {places : List Nat} (hplaces : ∀ p ∈ places, p < 32) {s : State} (h : Agreed s)
    (hp : PagesWhole s) (hkey : Filed s key) : Agreed (takeClaimLines i key r base stamp codes places s) := by
  induction places generalizing s with
  | nil => exact h
  | cons p rest ih =>
    obtain ⟨hp32, hrest⟩ := List.forall_mem_cons.mp hplaces
    have hyielded := h.yieldPending hp key base p (codes.getD p 0).toNat
    have hfiled : Filed (Machine.yieldPending key base p (codes.getD p 0).toNat s) key :=
      (filed_congr (by simp) key).mpr hkey
    have hrecorded := hyielded.recordHeard hfiled (index := base + p) (by omega) r stamp
    have hcoded {v : State} : Spares v (setPeerCode i r (base + p) (codes.getD p 0).toNat v) := (Spares.refl v).aside
    exact ih hrest (hrecorded.spared hcoded) (hp.congr (by simp)) ((filed_congr (by simp) key).mpr hkey)

theorem Agreed.judgeClaim (h : Agreed s) (hp : PagesWhole s) (sender : Station) (stamp : Nat) (k : Key) (base : BitVec 16)
    (mask : BitVec 32) (codes : List (BitVec 4)) : Agreed (judgeClaim sender stamp k base mask codes s) := by
  unfold Machine.judgeClaim
  split
  · exact h
  · split
    · exact h.spared ((Spares.refl s).bump 5 1)
    · next hok =>
      have hbase : base.toNat ≤ 2016 := baseOk_le (by
        simp only [Bool.or_eq_true, Bool.not_eq_true', not_or, Bool.not_eq_false] at hok
        exact hok.1)
      split
      · exact h
      · split
        · exact h
        · next i _ _ c hc =>
          exact h.takeClaimLines i _ hbase stamp codes (fun _ => maskPlaces_lt) hp ⟨i, c, hc, rfl⟩

theorem Agreed.completeLine (h : Agreed s) (i : SlotNo) (r : Receiver) (key : Key) (index q v : Nat) (bytes : List Byte) :
    Agreed (completeLine i r key index q v bytes s) := by
  cases hc : recordAt s i with
  | none => simpa only [Machine.completeLine, hc] using h
  | some c =>
    have hended : Agreed (Machine.dropClaims (Claim.isHeardOf c.key index r) s) :=
      h.dropClaims fun c hc hs => by simp [Claim.isHeardOf, hs] at hc
    have hleft : Spares (Machine.dropClaims (Claim.isHeardOf c.key index r) s)
        (dropAssembly r key index (Machine.dropClaims (Claim.isHeardOf c.key index r) s)) := (Spares.refl _).aside
    rw [completeLine_eq hc]
    exact hended.spared (.ite (hleft.mergeOffer _ _ _ _).aside (hleft.bump 5 1))

theorem Agreed.judgeLine (h : Agreed s) (sender : Station) (stamp : Nat) (k : Key) (index : BitVec 16)
    (count fragment : BitVec 4) (q : Byte) (v : BitVec 16) (runs : List Byte) :
    Agreed (judgeLine sender stamp k index count fragment q v runs s) := by
  have hcounted : Agreed (bump 5 1 s) := h.spared ((Spares.refl s).bump 5 1)
  have hassemblies (a : List Assembly) : Agreed (setAssemblies a s) := h.spared ((Spares.refl s).setAssemblies a)
  unfold Machine.judgeLine
  split
  · exact h
  · split
    · exact hcounted
    · split
      · exact h
      · dsimp only
        split
        · unfold firstFragment addAssembly
          split
          · exact h.completeLine _ _ _ _ _ _ _
          · split
            · exact hassemblies _
            · split
              · exact hassemblies _
              · split
                · exact hassemblies _
                · exact h.spared (((Spares.refl s).bump 5 1).setAssemblies _)
        · unfold laterFragment
          split
          · exact hcounted
          · split
            · dsimp only
              split
              · exact h.completeLine _ _ _ _ _ _ _
              · exact hassemblies _
            · exact h.spared (((Spares.refl s).setAssemblies _).bump 5 1)

/-! ### The link restart, and hearing (R97, R116, R111, R155) -/

/-- With table, list and queue empty there is nothing to agree on. -/
theorem Agreed.of_empty (hclaims : s.xen.claims = []) (hbuild : s.xen.build = []) (hqueue : s.slc.queue = []) : Agreed s where
  room := by simp [hclaims]
  transfers := by
    rw [hclaims, hbuild, hqueue]
    exact ⟨⟨nofun, nofun, .nil, .nil⟩, ⟨.nil, nofun⟩, nofun, ⟨.nil, .nil, nofun⟩⟩
  quiet _ := by simp [hqueue]

theorem Agreed.judgeRestart (h : Agreed s) (sender : Station) (stamp : Nat) (mask : BitVec 16) :
    Agreed (judgeRestart sender stamp mask s) := by
  have hcleared : Agreed (clearExchange (flushQueue s)) := .of_empty rfl rfl rfl
  have hforgotten {v : State} (hv : Spares (clearExchange (flushQueue s)) v) :
      Spares (clearExchange (flushQueue s)) { v with ssv := { v.ssv with peers := Vector.replicate 16 none } } := hv.aside
  unfold Machine.judgeRestart
  split
  · exact hcleared.spared (((hforgotten (Spares.refl _).setAllDirty).markPresent sender stamp).enqueue
      (newEntry_plain (by rfl) _))
  · exact h

theorem Agreed.dispatch (h : Agreed s) (hp : PagesWhole s) (hrole : s.slc.role = .none) (sender : Station) (stamp : Nat)
    (p : Payload) : Agreed (dispatch sender stamp p s) := by
  have hrefl := Spares.refl s
  cases p with
  | openF => exact h.judgeOpen hp hrole _ _ _ _ _ _
  | closeF => exact h.spared (hrefl.judgeClose _ _ _)
  | dropF => exact h.judgeDrop hp _
  | tallyF => exact h.spared (hrefl.judgeTally _ _ _ _)
  | wantF => exact h.judgeWant hrole _ _ _ _ _
  | claimF => exact h.judgeClaim hp _ _ _ _ _ _
  | lineF => exact h.judgeLine _ _ _ _ _ _ _ _ _
  | restartF => exact h.judgeRestart _ _ _
  | askF => exact h.spared (hrefl.judgeAsk _ _ _)
  | rosterF => exact h.spared (hrefl.judgeRoster _ _ _)
  | describeNullF | describeF | noteF | reportF => exact h

theorem Agreed.takeFate (h : Agreed s) (hp : PagesWhole s) (hrole : s.slc.role = .none) (f : Fate) :
    Agreed (takeFate f s) := by
  have hrefl := Spares.refl s
  cases f with
  | damaged => exact h.spared (hrefl.bump 5 1)
  | clash => exact h.spared ((hrefl.bump 5 1).raiseNote _ _ _)
  | malformed sender => exact h.spared ((hrefl.markPresent _ _).bump 5 1)
  | heard sender p =>
    have hmarked := ((hrefl.markPresent sender s.now).bump 4 1).refreshOf p s.now
    exact (h.spared hmarked).dispatch (hp.congr (by simp)) (hmarked.role.trans hrole) sender s.now p

/-- Another attachment's frame is heard when this station has no part in one (R109). -/
theorem Agreed.frameEvent (h : Agreed s) (hp : PagesWhole s) (named : Fate → Bool) (t : Nat) (bits : List Bool) :
    Agreed (frameEvent named t bits s) := by
  have hadvanced := h.spared ((Spares.refl s).advance t)
  unfold Machine.frameEvent
  dsimp only
  split
  · next hhears =>
    have hrole : s.slc.role = .none := by
      simp only [hearsFrame, Bool.and_eq_true, beq_iff_eq, advance_slc] at hhears
      exact hhears.2
    split
    · next f _ =>
      split
      · exact (hadvanced.spared (Spares.refl _).aside).takeFate (hp.congr (by simp)) (by simpa using hrole) f
      · exact hadvanced
    · exact hadvanced
  · exact hadvanced

end

section
variable {s u : State}

/-! ### Completions of own frames (R86, R106, R141, R146) -/

/-- Agreement is kept when entries leave or become what they may, the tables standing. -/
theorem Transfers.requeue {filed : Key → Prop} {claims : List Claim} {build : List BuildLine} {q : List Entry}
    (h : Transfers filed claims build q) {f : Entry → Option Entry}
    (hf : ∀ e ∈ q, ∀ e', f e = some e' → e.Becomes e') : Transfers filed claims build (q.filterMap f) := by
  simpa using h.prune (keep := fun _ => true) (stay := fun _ => true) (filed' := filed)
    (fun c hc _ => h.table.filed c hc) (fun _ _ _ _ => rfl) hf fun _ _ _ _ _ _ hstay => by cases hstay

/-- Agreement is kept when entries leave the queue, the tables standing. -/
theorem Transfers.leave {filed : Key → Prop} {claims : List Claim} {build : List BuildLine} {q : List Entry}
    (h : Transfers filed claims build q) (stays : Entry → Bool) : Transfers filed claims build (q.filter stays) := by
  rw [← List.filterMap_eq_filter]
  refine h.requeue fun e _ e' he => ?_
  obtain ⟨rfl, -⟩ := Option.guard_eq_some_iff.mp he
  exact .refl e

theorem isLine_iff {l x : BuildLine} : (l.key == x.key && l.index == x.index) = true ↔ l = x := by
  cases l; cases x; simp

theorem filter_unlisted {build : List BuildLine} {x : BuildLine} (h : x ∉ build) :
    build.filter (fun l => !(l.key == x.key && l.index == x.index)) = build := by
  refine List.filter_eq_self.mpr fun l hl => ?_
  rw [Bool.not_eq_true', ← Bool.not_eq_true, isLine_iff]
  exact fun heq => h (heq ▸ hl)

/-- A line is given up: its ACTIVE entry and its place on the build list go, and its fragments with them (R105, R146, R147). -/
theorem Agreed.giveUp (h : Agreed s) {x : BuildLine} {f : Entry → Option Entry}
    (hclaims : u.xen.claims = s.xen.claims.filter (fun c => !c.isActiveOf x.key x.index))
    (hbuild : u.xen.build = s.xen.build.filter (fun l => !(l.key == x.key && l.index == x.index)))
    (hqueue : u.slc.queue = s.slc.queue.filterMap f) (hrole : u.slc.role = s.slc.role)
    (hslots : u.cst.slots = s.cst.slots) (hf : ∀ e ∈ s.slc.queue, ∀ e', f e = some e' → e.Becomes e')
    (hgone : ∀ e ∈ s.slc.queue, ∀ e', f e = some e' → e.line = some x → e'.onWire = true ∧ .remove ∈ e'.waiting) :
    Agreed u := by
  refine h.pruned hclaims hbuild hqueue hrole (fun c _ _ hk => (filed_congr hslots _).mpr hk) (fun c _ hstay => ?_) hf
    fun e he e' hfe l hl hstay => hgone e he e' hfe (hl.trans (congrArg some ?_))
  · rw [Bool.not_eq_true', ← Bool.not_eq_true, isLine_iff] at hstay
    rw [Bool.not_eq_true', ← Bool.not_eq_true, isActiveOf_iff]
    exact fun hactive => hstay hactive.2
  · rwa [Bool.not_eq_false', isLine_iff] at hstay

theorem Agreed.activateLines (key : Key) (base stamp : Nat) (places : List Nat) {s : State} (h : Agreed s) :
    Agreed (activateLines key base stamp places s) := by
  induction places generalizing s with
  | nil => exact h
  | cons p rest ih =>
    refine ih ?_
    dsimp only
    split
    · next hany =>
      obtain ⟨c, hc, hpending⟩ := List.any_eq_true.mp hany
      have hwon : Agreed (setBuild (s.xen.build ++ [⟨key, base + p⟩])
          (setClaims (s.xen.claims.map (Claim.activated ⟨key, base + p⟩ stamp)) s)) :=
        ⟨by simpa using h.room, h.transfers.activate ⟨c, hc, isPendingOf_iff.mp hpending⟩ stamp, h.quiet⟩
      exact hwon.spared ((Spares.refl _).bump 8 1)
    · exact h

theorem Agreed.claimCompletion (h : Agreed s) (hp : PagesWhole s) (key : Key) (base : BitVec 16) (mask : BitVec 32)
    (stamp : Nat) (sent : Bool) : Agreed (claimCompletion key base mask stamp sent s) := by
  unfold Machine.claimCompletion
  split
  · exact (h.activateLines key base.toNat stamp (maskPlaces mask)).tryBuild (hp.congr (by simp))
  · refine h.dropClaims fun c hc hs => ?_
    obtain ⟨p, -, hpending⟩ := List.any_eq_true.mp hc
    simp [(isPendingOf_iff.mp hpending).1] at hs

/-- The completion of a line's last fragment finds no other of it queued, and no completion finds the line listed (R146). -/
theorem Agreed.lineCompletion (h : Agreed s) (hp : PagesWhole s) {key : Key} {index count fragment : Nat} {sent : Bool}
    (hunlisted : ⟨key, index⟩ ∉ s.xen.build)
    (halone : fragment + 1 = count → ∀ e ∈ s.slc.queue, e.line ≠ some ⟨key, index⟩) :
    Agreed (lineCompletion key index count fragment sent s) := by
  have hbuild := (filter_unlisted hunlisted).symm
  unfold Machine.lineCompletion
  split
  · split
    · next hlast =>
      have hended : Agreed (Machine.dropClaims (Claim.isActiveOf key index) s) :=
        h.giveUp (x := ⟨key, index⟩) (f := some) rfl hbuild (by simp) rfl rfl
          (fun e _ e' he => Option.some.inj he ▸ .refl e) fun e he _ _ hl => absurd hl (halone hlast e he)
      dsimp only
      split
      · exact hended
      · exact hended.spared ((Spares.refl _).updateChart fun _ => by rfl)
    · exact h
  · refine Agreed.retryBuild ?_ (hp.congr (by rfl)) _
    exact h.giveUp (x := ⟨key, index⟩) rfl hbuild rfl rfl rfl (fun e _ e' he => request_becomes (r := .remove) nofun he)
      fun e _ e' he hl => request_leaves (isFragmentOf_iff.mpr hl) he

theorem Agreed.ownerCompletion (h : Agreed s) (hp : PagesWhole s) {e : Entry} (stamp : Nat) {sent : Bool}
    (hunlisted : ∀ x, e.line = some x → x ∉ s.xen.build)
    (halone : ∀ x, e.line = some x → e.isLastFragment = true → ∀ d ∈ s.slc.queue, d.line ≠ some x) :
    Agreed (ownerCompletion e stamp sent s) := by
  unfold Machine.ownerCompletion
  split
  · exact h.spared ((Spares.refl s).openCompletion _ _ _ _)
  · exact h.claimCompletion hp _ _ _ _ _
  · next k index count fragment q v runs hpayload =>
    have hline : e.line = some ⟨k, index.toNat⟩ := by simp only [Entry.line, hpayload]
    exact h.lineCompletion hp (hunlisted _ hline) fun hlast =>
      halone _ hline (by simp only [Entry.isLastFragment, hpayload]; exact beq_iff_eq.mpr hlast)
  · exact h

/-- Every frame with a fragment is of one class. -/
theorem kind_of_line {e : Entry} {l : BuildLine} (h : e.line = some l) : e.payload.kind = .lineK := by
  unfold Entry.line at h
  split at h
  · next hp => rw [hp]; rfl
  · cases h

/-- A line's last fragment on the wire is the only one of its line (R101, R103, R146). -/
theorem QueueSound.last_alone {q : List Entry} (h : QueueSound q) {d e : Entry} (he : e ∈ q) (hw : e.onWire = true)
    (hlast : e.isLastFragment = true) (hd : d ∈ q) (hoff : d.onWire = false) {x : BuildLine} (hx : e.line = some x) :
    d.line ≠ some x := by
  intro hdx
  obtain ⟨before, behind, rfl⟩ := List.append_of_mem he
  rcases List.mem_append.mp hd with hd | hd
  · have holdest := (List.pairwise_append.mp h.oldest).2.2 d hd e List.mem_cons_self hw
    exact holdest (by rw [kind_of_line hdx, kind_of_line hx])
  · rcases List.mem_cons.mp hd with rfl | hd
    · rw [hw] at hoff
      cases hoff
    · have horder := (List.pairwise_cons.mp (List.pairwise_append.mp h.order).2.1).1 d hd x hx hdx
      rw [hlast] at horder
      cases horder

theorem wireEntry_spec {q : List Entry} {e : Entry} (h : wireEntry q = some e) : e ∈ q ∧ e.onWire = true :=
  ⟨List.mem_of_find?_eq_some h, List.find?_some h⟩

/-! ### Silent mode (R107, R149) -/

theorem Agreed.enterSilent (h : Agreed s) : Agreed (enterSilent s) := by
  have hlines {e : Entry} (he : e ∈ s.slc.queue.filter (fun e => !e.payload.isLine)) : e.line = none :=
    line_eq_none_iff.mpr (by simpa using (List.mem_filter.mp he).2)
  have habandoned (gone : List (Key × Nat)) {v : State} (hv : Agreed v) (hnone : ∀ e ∈ v.slc.queue, e.line = none) :
      Agreed (gone.foldl (fun v l => abandonLine l v) v) := by
    induction gone generalizing v with
    | nil => exact hv
    | cons l rest ih =>
      refine ih (hv.giveUp (x := ⟨l.1, l.2⟩) (f := some) rfl rfl (List.filterMap_some).symm rfl rfl
        (fun e _ e' he => Option.some.inj he ▸ .refl e) fun e he _ _ hl => ?_) hnone
      rw [hnone e he] at hl
      cases hl
  exact (habandoned (fragmentLines s.slc.queue) (v := { s with slc := { s.slc with
      silent := some (s.now + Config.silentMs), damageRun := 0, queue := s.slc.queue.filter (fun e => !e.payload.isLine) } })
    ⟨h.room, h.transfers.leave _, fun hrole e he => h.quiet hrole e (List.mem_of_mem_filter he)⟩ fun e he => hlines he).spared
      ((Spares.refl _).raiseNote _ _ _)

/-! ### The share line's own commands -/

/-- A completion finds of the entry's line nothing to build, and behind its last fragment nothing queued (R106, R146). -/
theorem Agreed.completeSend (h : Agreed s) (hp : PagesWhole s) {e : Entry} (he : wireEntry s.slc.queue = some e)
    (outcome : SendOutcome) : Agreed (completeSend e outcome s) := by
  obtain ⟨hmem, hw⟩ := wireEntry_spec he
  have hcounted : (countCompletion outcome (lineAfterSend s.ssv.own e outcome s)).xen = s.xen ∧
      (countCompletion outcome (lineAfterSend s.ssv.own e outcome s)).cst = s.cst ∧
      (countCompletion outcome (lineAfterSend s.ssv.own e outcome s)).slc.queue = s.slc.queue := by
    cases outcome <;> simp [countCompletion, lineAfterSend, frameEnded, stopDriving]
  unfold Machine.completeSend
  dsimp only
  generalize countCompletion outcome (lineAfterSend s.ssv.own e outcome s) = v at hcounted ⊢
  obtain ⟨hxen, hcst, hqueue⟩ := hcounted
  rw [hqueue]
  generalize hended : setSlc _ v = w
  have hwxen : w.xen = s.xen := by rw [← hended]; exact hxen
  have hwcst : w.cst = s.cst := by rw [← hended]; exact hcst
  have hwqueue : w.slc.queue = s.slc.queue.filter (fun d => !d.onWire) := by rw [← hended]; rfl
  have hleft : Agreed w := by
    refine ⟨hwxen ▸ h.room, ?_, fun _ d hd => ?_⟩
    · rw [hwxen, hwqueue, show Filed w = Filed s from funext fun k => propext (filed_congr (congrArg Cst.slots hwcst) k)]
      exact h.transfers.leave _
    · rw [hwqueue] at hd
      simpa using (List.mem_filter.mp hd).2
  have hwp : PagesWhole w := hp.congr (congrArg Cst.pages hwcst)
  obtain ⟨hlisted, hqueued⟩ := hleft.tryBuild_lines hwp
  rw [hwxen] at hlisted hqueued
  have hunlisted (x : BuildLine) (hx : e.line = some x) : x ∉ s.xen.build := (h.transfers.fragments e hmem x hx).built
  have hdone : Agreed (Machine.ownerCompletion e w.now (decide (outcome = .sent)) (Machine.tryBuild w)) := by
    refine (hleft.tryBuild hwp).ownerCompletion (hwp.congr (by simp)) _ (fun x hx hin => hunlisted x hx (hlisted hin))
      fun x hx hlast d hd hdx => ?_
    rcases hqueued d hd with hd | ⟨b, hb, hdb⟩
    · rw [hwqueue, List.mem_filter, Bool.not_eq_true'] at hd
      exact h.transfers.queue.last_alone hmem hw hlast hd.1 hd.2 hx hdx
    · obtain rfl := Option.some.inj (hdb.symm.trans hdx)
      exact hunlisted b hx hb
  split
  · exact hdone.enterSilent
  · exact hdone

theorem Agreed.loseArbitration (h : Agreed s) (hp : PagesWhole s) (e : Entry) (bit : Nat) :
    Agreed (loseArbitration e bit s) := by
  have hlost {d d' : Entry} (hd : d ∈ s.slc.queue) (h' : (if d.onWire then d.lose else some d) = some d') :
      d.Becomes d' ∧ d'.onWire = false := by
    split at h'
    · exact lose_becomes (h.transfers.queue.waiting d hd) h'
    · next hoff => cases h'; exact ⟨.refl d, Bool.eq_false_iff.mpr hoff⟩
  have hleft (bits : List Bool) :
      Agreed (setSlc { stopDriving bits s.slc with queue := loseQueue s.slc.queue } s) := by
    refine ⟨h.room, h.transfers.requeue fun d hd d' h' => (hlost hd h').1, fun _ d' hd' => ?_⟩
    obtain ⟨d, hd, h'⟩ := List.mem_filterMap.mp hd'
    exact (hlost hd h').2
  unfold Machine.loseArbitration
  dsimp only
  split
  · exact (hleft _).tryBuild (hp.congr rfl)
  · exact hleft _

theorem Agreed.startFrame (h : Agreed s) (hrole : s.slc.role = .none) {n : Nat} (hn : offeredPlace s.slc.queue = some n) :
    Agreed (startFrame n s) :=
  ⟨h.room, h.transfers.start (h.quiet hrole) hn, fun hnone => by cases hnone⟩

theorem Agreed.lapseOwn (h : Agreed s) (hp : PagesWhole s) (key : Key) (index : Nat) : Agreed (lapseOwn key index s) := by
  refine Agreed.retryBuild ?_ (hp.congr (by rfl)) _
  exact h.giveUp (x := ⟨key, index⟩) rfl rfl rfl rfl rfl (fun e _ e' he => request_becomes (r := .remove) nofun he)
    fun e _ e' he hl => request_leaves (isFragmentOf_iff.mpr hl) he

/-! ### The step -/

/-- Every command keeps the agreement; the cases stand in the commands' order, each split along its guards. -/
theorem Agreed.exec {c : Instr} (h : Agreed s) (hp : PagesWhole s) (hexec : exec c s = .next u) : Agreed u := by
  have hrefl := Spares.refl s
  have ha (t : Nat) : Agreed (Machine.advance t s) := h.spared (hrefl.advance t)
  have hpa (t : Nat) : PagesWhole (Machine.advance t s) := hp.congr (by simp)
  have hsame (t : Nat) := hrefl.advance t
  cases c <;> cases hexec
  case reset.refl pin =>
    cases pin with
    | low => exact .of_empty rfl rfl rfl
    | released => exact h.spared (.ite hrefl.aside hrefl)
  case endOfBoot.refl n => exact h.spared (.ite (hrefl.takeBootSteps n).aside hrefl)
  case levelWord.refl t word =>
    dsimp only
    split
    · exact (ha t).takeWord (hpa t) _
    · exact ha t
  case wordDiscard.refl t => exact ha t
  case gainDownEnd.refl t => exact h.spared (.ite (hsame t).aside (hsame t))
  case phasingTimeout.refl t => exact h.spared (.ite (hsame t).aside (hsame t))
  case lineIdle.refl t => exact h.spared (.ite (hsame t).aside (hsame t))
  case lineBusy.refl t => exact h.spared (.ite (hsame t) (.ite (hsame t).aside (hsame t).aside))
  case frameStart.refl t =>
    split
    · next hmay =>
      simp only [mayStart, Bool.and_eq_true, beq_iff_eq] at hmay
      split
      · next hn => exact (ha t).startFrame hmay.2 hn
      · exact ha t
    · exact ha t
  case arbitrationLost.refl t bit =>
    split
    · split
      · exact (ha t).loseArbitration (hpa t) _ _
      · exact ha t
    · exact ha t
  case arbitrationWon.refl t =>
    split
    · refine ⟨(ha t).room, ?_, fun hnone => by cases hnone⟩
      rw [setSlc_slc, ← List.filterMap_eq_map]
      exact (ha t).transfers.requeue fun d _ d' hd => Option.some.inj hd ▸ win_becomes _
    · exact ha t
  case sendCompletion.refl t outcome =>
    split
    · next he =>
      split
      · exact (ha t).completeSend (hpa t) he _
      · exact ha t
    · exact ha t
  case silentEnd.refl t =>
    split
    · have hended : Spares s (setSlc { (Machine.advance t s).slc with silent := none } (Machine.advance t s)) := (hsame t).aside
      exact (h.spared (hended.raiseNote _ _ _)).tryBuild (hp.congr (by simp))
    · exact ha t
  case frameDamaged.refl | frameMalformed.refl | clash.refl | openHeard.refl | closeHeard.refl | dropHeard.refl |
      tallyHeard.refl | wantHeard.refl | claimHeard.refl | lineHeard.refl | restartHeard.refl | askHeard.refl |
      rosterHeard.refl | infoHeard.refl => exact h.frameEvent hp _ _ _
  case tallyExpiry.refl t => exact h.spared (.ite (Spares.tallyRound (hsame t).aside) (hsame t))
  case wantTimerExpiry.refl t i =>
    split
    · exact h.spared (.ite ((hsame t).wantExpiry _ _) (hsame t))
    · exact ha t
  case sweepDeadline.refl t i =>
    split
    · exact h.spared (.ite ((hsame t).sweepOver _) (hsame t))
    · exact ha t
  case silenceClose.refl t i =>
    split
    · exact h.spared (.ite ((hsame t).closeSlot _ _) (hsame t))
    · exact ha t
  case claimLapse.refl t key index =>
    split
    · split
      · exact (ha t).lapseOwn (hpa t) _ _
      · exact ha t
    · exact ha t
  case heardLapse.refl t key index r =>
    split
    · split
      · have hdropped : Agreed (Machine.dropClaims (Claim.isHeardOf key index r) (Machine.advance t s)) :=
          (ha t).dropClaims fun c hc hs => by simp [Claim.isHeardOf, hs] at hc
        exact hdropped.spared ((Spares.refl _).bump 10 1)
      · exact ha t
    · exact ha t
  case reassemblyTimeout.refl t r key index =>
    split
    · exact h.spared (.ite (((hsame t).setAssemblies _).bump 5 1) (hsame t))
    · exact ha t
  case peerAbsent.refl t st =>
    split
    · exact h.spared (.ite ((hsame t).declareAbsent _) (hsame t))
    · exact ha t
  case rosterExpiry.refl t => exact h.spared (.ite (Spares.enqueue (hsame t).aside (newEntry_plain (by rfl) _)) (hsame t))
  case minuteExpiry.refl t => exact h.spared (.ite (Spares.enqueue (hsame t).aside (newEntry_plain (by rfl) _)) (hsame t))

theorem Agreed.step (h : Agreed s) (hp : PagesWhole s) (hstep : step s = .next u) : Agreed u := by
  unfold Machine.step at hstep
  split at hstep
  · cases hstep
    exact h.spared (Spares.refl s).idleStep
  · next rest _ =>
    exact Agreed.exec (s := { s with pending := rest }) (h.spared (Spares.refl s).aside) (hp.congr rfl) hstep

end

/-- Settles O60: `Tracked` is agreement, which needs of `Bounded` the claim table's room and the pages' size, and of
`Wired` that nothing is on the wire while the SLC has no part in a frame. -/
theorem stepKeepsTransfers : Obligations.StepKeepsTransfers := by
  intro s u hbounded hwired htracked hstep
  have hquiet (hrole : s.slc.role = .none) (e : Entry) (he : e ∈ s.slc.queue) : e.onWire = false := by
    have hnone := hwired.wire
    rw [if_pos hrole, List.countP_eq_zero] at hnone
    exact Bool.eq_false_iff.mpr (hnone e he)
  have hagreed : Agreed u :=
    Agreed.step ⟨hbounded.claims, (tracked_iff.mp htracked).1, hquiet⟩ hbounded.pages hstep
  exact tracked_iff.mpr ⟨hagreed.transfers, hagreed.transfers.listed.length_le.trans hagreed.room⟩

/-! ## Two transitions and the nearest slot (R82, R83, R89, R90) -/

theorem rateMs_pos (r : Rate) : 0 < rateMs r := by cases r <;> decide

/-- Rounded half up, a multiple of `m` comes within half of `m`, and above what it rounds at just half (R82). -/
theorem roundHalfUp_spec (n : Nat) {m : Nat} (hm : 0 < m) :
    2 * (roundHalfUp n m * m) ≤ 2 * n + m ∧ 2 * n < 2 * (roundHalfUp n m * m) + m ∧
      ∀ k, roundHalfUp n m ≤ k ↔ 2 * n < (2 * k + 1) * m := by
  have hdiv := Nat.div_add_mod (2 * n + m) (2 * m)
  have hmod := Nat.mod_lt (2 * n + m) (Nat.mul_pos Nat.two_pos hm)
  have hround : 2 * m * ((2 * n + m) / (2 * m)) = 2 * (roundHalfUp n m * m) := by rw [roundHalfUp]; ring
  refine ⟨by omega, by omega, fun k => ?_⟩
  have hk : (k + 1) * (2 * m) = (2 * k + 1) * m + m := by ring
  rw [← Nat.lt_succ_iff, roundHalfUp, Nat.div_lt_iff_lt_mul (Nat.mul_pos Nat.two_pos hm), Nat.succ_eq_add_one, hk]
  omega

/-- `offsetWithin8` is the rounded distance, when that lies within ±8 (R82). -/
theorem offsetWithin8_eq_some {a b o : Int} {r : Rate} :
    offsetWithin8 a b r = some o ↔ roundHalfAway (a - b) (rateMs r) = o ∧ o.natAbs ≤ 8 := by
  simp only [offsetWithin8]
  split
  next h => exact ⟨fun heq => by cases heq; exact ⟨rfl, h⟩, fun heq => congrArg some heq.1⟩
  next h => exact ⟨nofun, fun heq => absurd (heq.1 ▸ heq.2) h⟩

theorem offsetWithin8_isSome (a b : Int) (r : Rate) :
    (offsetWithin8 a b r).isSome = true ↔ roundHalfUp (a - b).natAbs (rateMs r) ≤ 8 := by
  have hsize : (roundHalfAway (a - b) (rateMs r)).natAbs = roundHalfUp (a - b).natAbs (rateMs r) := by
    unfold roundHalfAway; split <;> omega
  rw [← hsize, Option.isSome_iff_exists]
  exact ⟨fun ⟨o, ho⟩ => by obtain ⟨rfl, h8⟩ := offsetWithin8_eq_some.mp ho; exact h8,
    fun h8 => ⟨_, offsetWithin8_eq_some.mpr ⟨rfl, h8⟩⟩⟩

/-- The rounded distance lies within half a period of the distance, on its side of 0, and at just half farther out (R82). -/
theorem roundHalfAway_spec (d : Int) {m : Nat} (hm : 0 < m) :
    let o := roundHalfAway d m
    2 * (d - o * m).natAbs ≤ m ∧ (0 < d → 0 ≤ o) ∧ (d < 0 → o ≤ 0) ∧
      (2 * (d - o * m).natAbs = m → d.natAbs < o.natAbs * m) := by
  obtain ⟨habove, hbelow, -⟩ := roundHalfUp_spec d.natAbs hm
  unfold roundHalfAway
  generalize roundHalfUp d.natAbs m = n at *
  have hcast : (n : Int) * m = (n * m : Nat) := by push_cast; rfl
  split <;> simp only [Int.natAbs_neg, Int.natAbs_natCast, Int.neg_mul, hcast] <;> omega

/-- What the fold of `nearestSlot` has found among the slots seen: no candidate, or the nearest, the lower at a tie (R83). -/
def IsNearest (near : SlotNo → Option Int) (seen : SlotNo → Prop) : Option (SlotNo × Int) → Prop
  | none => ∀ j, seen j → near j = none
  | some (i, o) => seen i ∧ near i = some o ∧
      ∀ j p, seen j → near j = some p → o.natAbs < p.natAbs ∨ (o.natAbs = p.natAbs ∧ i ≤ j)

/-- A slot behind those seen becomes the nearest only when it is strictly nearer. -/
theorem IsNearest.nearer {near : SlotNo → Option Int} {seen : SlotNo → Prop} {best : Option (SlotNo × Int)} {i : SlotNo}
    (h : IsNearest near seen best) (hlow : ∀ j, seen j → j ≤ i) :
    IsNearest near (fun j => seen j ∨ j = i) (nearer near best i) := by
  cases hi : near i with
  | none =>
    simp only [Machine.nearer, hi]
    cases best with
    | none =>
      rintro j (hj | rfl)
      exacts [h j hj, hi]
    | some found =>
      refine ⟨.inl h.1, h.2.1, ?_⟩
      rintro j p (hj | rfl) hp
      · exact h.2.2 j p hj hp
      · rw [hi] at hp; cases hp
  | some o =>
    simp only [Machine.nearer, hi]
    cases best with
    | none =>
      refine ⟨.inr rfl, hi, ?_⟩
      rintro j p (hj | rfl) hp
      · rw [h j hj] at hp; cases hp
      · rw [hi] at hp; cases hp; exact .inr ⟨rfl, le_rfl⟩
    | some found =>
      obtain ⟨hseen, hfound, hleast⟩ := h
      dsimp only
      split
      next hless =>
        refine ⟨.inr rfl, hi, ?_⟩
        rintro j p (hj | rfl) hp
        · exact .inl ((hleast j p hj hp).elim hless.trans fun heq => heq.1 ▸ hless)
        · rw [hi] at hp; cases hp; exact .inr ⟨rfl, le_rfl⟩
      next hmore =>
        refine ⟨.inl hseen, hfound, ?_⟩
        rintro j p (hj | rfl) hp
        · exact hleast j p hj hp
        · rw [hi] at hp; cases hp
          exact (Nat.lt_or_eq_of_le (Nat.le_of_not_lt hmore)).imp id fun heq => ⟨heq, hlow _ hseen⟩

theorem nearestSlot_isNearest (near : SlotNo → Option Int) : IsNearest near (fun _ => True) (nearestSlot near) := by
  have hstart : IsNearest near (fun _ => False) none := fun _ h => h.elim
  have hall := (((hstart.nearer (i := 0) (by simp)).nearer (i := 1) (by simp)).nearer (i := 2) (by decide)).nearer (i := 3)
    (by decide)
  have hseen : (fun j : SlotNo => (((False ∨ j = 0) ∨ j = 1) ∨ j = 2) ∨ j = 3) = fun _ => True := by
    funext j; revert j; decide
  exact hseen ▸ hall

/-- No two candidates are both the nearest, so the slot found is the one that is (R83). -/
theorem nearestSlot_eq_some {near : SlotNo → Option Int} {i : SlotNo} {o : Int} :
    nearestSlot near = some (i, o) ↔ near i = some o ∧
      ∀ j p, near j = some p → o.natAbs < p.natAbs ∨ (o.natAbs = p.natAbs ∧ i ≤ j) := by
  have hnear := nearestSlot_isNearest near
  constructor
  · intro h
    rw [h] at hnear
    exact ⟨hnear.2.1, fun j p => hnear.2.2 j p trivial⟩
  · rintro ⟨hi, hleast⟩
    cases hfound : nearestSlot near with
    | none =>
      rw [hfound] at hnear
      rw [hnear i trivial] at hi; cases hi
    | some found =>
      obtain ⟨j, p⟩ := found
      rw [hfound] at hnear
      obtain ⟨-, hj, hbest⟩ := hnear
      have hij := hleast j p hj
      have hji := hbest i o trivial hi
      obtain rfl : i = j := le_antisymm (hij.elim (by omega) (·.2)) (hji.elim (by omega) (·.2))
      rw [hi] at hj; cases hj; rfl

theorem nearestSlot_eq_none {near : SlotNo → Option Int} : nearestSlot near = none ↔ ∀ i, near i = none := by
  refine ⟨fun h i => ?_, nearestSlot_none⟩
  have hnear := nearestSlot_isNearest near
  rw [h] at hnear
  exact hnear i trivial

/-- Settles O21. The rounding's bounds decide the distance, and the fold over the slots keeps the nearest of those seen. -/
theorem offsetRounds : Obligations.OffsetRounds := by
  refine ⟨fun a b r => ⟨?_, fun o ho => ?_⟩, fun near => ⟨nearestSlot_eq_none, fun i o => nearestSlot_eq_some⟩⟩
  · rw [offsetWithin8_isSome, (roundHalfUp_spec _ (rateMs_pos r)).2.2 8]
  · obtain ⟨rfl, h8⟩ := offsetWithin8_eq_some.mp ho
    exact ⟨h8, roundHalfAway_spec (a - b) (rateMs_pos r)⟩

/-! ## Completions at their owners (R86, R141, R146) -/

section
variable {s : State} {k : Key}

theorem openCompletion_keyed {e : Entry} {i : SlotNo} {c : Chart} (he : e.slot = some i) (hc : recordAt s i = some c)
    (hk : c.key = k) (delay : BitVec 16) :
    openCompletion e k delay true s = raiseNote 0 (some k) delay (setOpenReq i .nothing s) ∧
      openCompletion e k delay false s = setOpenReq i (if c.state = .live then .owed else .nothing) s := by
  simp [openCompletion, he, hc, hk]

theorem openCompletion_unkeyed {e : Entry} {i : SlotNo} (he : e.slot = some i) (hk : ∀ c, recordAt s i = some c → c.key ≠ k)
    (delay : BitVec 16) :
    openCompletion e k delay true s = raiseNote 0 (some k) delay s ∧ openCompletion e k delay false s = s := by
  cases hc : recordAt s i with
  | none => simp [openCompletion, he, hc]
  | some c => simp [openCompletion, he, hc, hk c hc]

/-- The last fragment SENT ends its claim (R146). -/
theorem lineCompletion_unreached {index count fragment : Nat} (h : fragment + 1 = count) (hslot : slotOf s k = none) :
    lineCompletion k index count fragment true s = dropClaims (Claim.isActiveOf k index) s := by
  have hslot' : slotOf (dropClaims (Claim.isActiveOf k index) s) k = none := hslot
  simp [lineCompletion, h, hslot']

/-- The last fragment SENT ends its claim, and marks the slot its key reaches used (R146). -/
theorem lineCompletion_reached {index count fragment : Nat} {i : SlotNo} {c : Chart} (h : fragment + 1 = count)
    (hslot : slotOf s k = some i) (hc : recordAt s i = some c) :
    lineCompletion k index count fragment true s =
      setChart i (some { c with used := true }) (dropClaims (Claim.isActiveOf k index) s) := by
  have hslot' : slotOf (dropClaims (Claim.isActiveOf k index) s) k = some i := hslot
  have hc' : recordAt (dropClaims (Claim.isActiveOf k index) s) i = some c := hc
  simp only [lineCompletion, if_true, if_pos h, hslot', updateChart_eq hc']

/-! ### The lines of a SENT CLAIM -/

theorem bump_bump (n : Fin 16) (a b : Nat) : bump n a (bump n b s) = bump n (b + a) s := by
  have hcounters : (bump n a (bump n b s)).ssv.counters = (bump n (b + a) s).ssv.counters := by
    ext m hm
    rw [← Fin.getElem_fin _ ⟨m, hm⟩ hm, ← Fin.getElem_fin _ ⟨m, hm⟩ hm]
    simp only [bump_getElem]
    split <;> omega
  exact congrArg (fun c => { s with ssv := { s.ssv with counters := c } }) hcounters

/-- The places of a CLAIM with a PENDING entry of its key (R141). -/
def wonPlaces (s : State) (k : Key) (base : Nat) (places : List Nat) : List Nat :=
  places.filter (fun p => s.xen.claims.any (Claim.isPendingOf k (base + p)))

/-- A claim entry behind the send of a CLAIM that won these places: ACTIVE if its line is among them and it was PENDING (R141). -/
def Claim.wonAmong (k : Key) (base stamp : Nat) (won : List Nat) (c : Claim) : Claim :=
  if c.state == .pending && c.key == k && won.any (fun p => c.index == base + p) then
    { c with state := .active, expiry := some (stamp + Config.claimMs) }
  else c

/-- The lines won: their entries ACTIVE, the lines at the end of the build list, each counted in counter 8 (R141). -/
def winLines (k : Key) (base stamp : Nat) (won : List Nat) (s : State) : State :=
  bump 8 won.length (setBuild (s.xen.build ++ won.map (fun p => ⟨k, base + p⟩))
    (setClaims (s.xen.claims.map (Claim.wonAmong k base stamp won)) s))

theorem wonAmong_singleton (k : Key) (base stamp p : Nat) :
    Claim.wonAmong k base stamp [p] = Claim.activated ⟨k, base + p⟩ stamp := by
  funext c
  simp only [Claim.wonAmong, Claim.activated, Claim.isPendingOf, List.any_cons, List.any_nil, Bool.or_false]
  rfl

theorem wonAmong_cons (k : Key) (base stamp p : Nat) (won : List Nat) (c : Claim) :
    Claim.wonAmong k base stamp won (Claim.wonAmong k base stamp [p] c) = Claim.wonAmong k base stamp (p :: won) c := by
  by_cases hp : (c.state == .pending && c.key == k) = true
  · by_cases hi : (c.index == base + p) = true
    · simp [Claim.wonAmong, hp, hi]
    · simp [Claim.wonAmong, hp, hi]
  · simp [Claim.wonAmong, hp]

theorem winLines_cons (k : Key) (base stamp p : Nat) (won : List Nat) :
    winLines k base stamp won (winLines k base stamp [p] s) = winLines k base stamp (p :: won) s := by
  have hclaims : (s.xen.claims.map (Claim.wonAmong k base stamp [p])).map (Claim.wonAmong k base stamp won) =
      s.xen.claims.map (Claim.wonAmong k base stamp (p :: won)) := by
    rw [List.map_map]
    exact List.map_congr_left fun c _ => wonAmong_cons k base stamp p won c
  have hbuild : s.xen.build ++ [⟨k, base + p⟩] ++ won.map (fun p => ⟨k, base + p⟩) =
      s.xen.build ++ (p :: won).map (fun p => (⟨k, base + p⟩ : BuildLine)) := by simp
  calc winLines k base stamp won (winLines k base stamp [p] s)
    _ = bump 8 won.length (bump 8 1 (setBuild (s.xen.build ++ [⟨k, base + p⟩] ++ won.map (fun p => ⟨k, base + p⟩))
          (setClaims ((s.xen.claims.map (Claim.wonAmong k base stamp [p])).map (Claim.wonAmong k base stamp won)) s))) := rfl
    _ = winLines k base stamp (p :: won) s := by
        rw [hclaims, hbuild, bump_bump, Nat.add_comm, ← List.length_cons (a := p)]; rfl

/-- Winning one line leaves the other places' entries PENDING as they were. -/
theorem wonPlaces_winLines {base stamp p : Nat} {places : List Nat} (hp : p ∉ places) :
    wonPlaces (winLines k base stamp [p] s) k base places = wonPlaces s k base places := by
  refine List.filter_congr fun q hq => ?_
  have hne : p ≠ q := fun h => hp (h ▸ hq)
  simp only [winLines, wonAmong_singleton, bump_xen]
  change List.any (s.xen.claims.map (Claim.activated ⟨k, base + p⟩ stamp)) _ = _
  simp only [List.any_map, Function.comp_def]
  congr 1
  funext c
  rw [Bool.eq_iff_iff, isPendingOf_iff, isPendingOf_iff, activated_line]
  refine ⟨fun ⟨hs, hl⟩ => ⟨pending_of_activated hs, hl⟩, fun ⟨hs, hl⟩ => ⟨?_, hl⟩⟩
  rwa [Claim.activated, if_neg fun hpend => ?_]
  have := congrArg BuildLine.index (hl.symm.trans (isPendingOf_iff.mp hpend).2)
  simp at this
  omega

/-- Together, the steps over a CLAIM's places win exactly the lines with a PENDING entry (R141). -/
theorem activateLines_eq (k : Key) (base stamp : Nat) {places : List Nat} (h : places.Nodup) (s : State) :
    activateLines k base stamp places s =
      if wonPlaces s k base places = [] then s else winLines k base stamp (wonPlaces s k base places) s := by
  induction places generalizing s with
  | nil => rfl
  | cons p rest ih =>
    obtain ⟨hp, hrest⟩ := List.nodup_cons.mp h
    by_cases hwon : s.xen.claims.any (Claim.isPendingOf k (base + p)) = true
    · have hstep : activateLines k base stamp (p :: rest) s = activateLines k base stamp rest (winLines k base stamp [p] s) := by
        simp only [activateLines, if_pos hwon, winLines, wonAmong_singleton]; rfl
      have hplaces : wonPlaces s k base (p :: rest) = p :: wonPlaces s k base rest := List.filter_cons_of_pos hwon
      rw [hstep, ih hrest, wonPlaces_winLines hp, hplaces, if_neg (List.cons_ne_nil _ _), winLines_cons]
      split
      · next hnone => rw [hnone]
      · rfl
    · have hstep : activateLines k base stamp (p :: rest) s = activateLines k base stamp rest s := by
        simp only [activateLines, if_neg hwon]
      have hplaces : wonPlaces s k base (p :: rest) = wonPlaces s k base rest := List.filter_cons_of_neg hwon
      rw [hstep, hplaces, ih hrest]

end

theorem mem_maskPlaces {mask : BitVec 32} {p : Nat} : p ∈ maskPlaces mask ↔ p < 32 ∧ mask.getLsbD p = true := by
  simp [maskPlaces]

theorem maskPlaces_nodup (mask : BitVec 32) : (maskPlaces mask).Nodup := (maskPlaces_pairwise mask).imp Nat.ne_of_lt

/-- Settles O30. Each payload's owner by cases, and a SENT CLAIM's lines by induction on its places. -/
theorem ownersActOnCompletions : Obligations.OwnersActOnCompletions := by
  refine ⟨fun e stamp s => ⟨?_, ?_, ?_⟩, fun s k base stamp mask => ⟨fun p => mem_maskPlaces, maskPlaces_pairwise mask, ?_, ?_⟩⟩
  · intro k tag rate delay i he hi
    simp only [ownerCompletion, he]
    exact ⟨fun c hc hk => openCompletion_keyed hi hc hk delay, fun hk => openCompletion_unkeyed hi hk delay⟩
  · intro k base mask codes he
    simp only [ownerCompletion, he]
    refine ⟨rfl, ?_⟩
    have hpending (c : Claim) : (maskPlaces mask).any (fun p => c.isPendingOf k (base.toNat + p)) =
        (c.state == .pending && c.key == k && (maskPlaces mask).any (fun p => c.index == base.toNat + p)) := by
      cases hk : (c.state == .pending && c.key == k) <;> simp [Claim.isPendingOf, hk]
    simp only [claimCompletion, dropClaims, setClaims, hpending, Bool.false_eq_true, if_false]
  · intro k index count fragment q u runs he ended
    simp only [ownerCompletion, he]
    refine ⟨fun hmore => ?_, fun hlast => ⟨lineCompletion_unreached hlast, fun i c => lineCompletion_reached hlast⟩, rfl⟩
    simp only [lineCompletion, if_true, if_neg hmore]
  · exact fun hnone => (activateLines_eq k base stamp (maskPlaces_nodup mask) s).trans (if_pos hnone)
  · exact fun hwon => (activateLines_eq k base stamp (maskPlaces_nodup mask) s).trans (if_neg hwon)

/-! ## What hearing a frame leaves (R80, R98, R111, R121, R156) -/

section
variable {s u : State} {sender : Station}

theorem recordAt_foldl_updateChart {f : Chart → Chart} (hf : ∀ c, f (f c) = f c) (l : List SlotNo) (s : State) (i : SlotNo) :
    recordAt (l.foldl (fun s i => updateChart i f s) s) i = if i ∈ l then (recordAt s i).map f else recordAt s i := by
  induction l generalizing s with
  | nil => rfl
  | cons j rest ih =>
    rw [List.foldl_cons, ih, recordAt_updateChart]
    by_cases hij : j = i
    · subst hij
      simp [Function.comp_def, hf]
    · simp [hij, Ne.symm hij]

/-- Every record's dirty flags are set (R121). -/
theorem recordAt_setAllDirty (i : SlotNo) :
    recordAt (setAllDirty s) i = (recordAt s i).map (fun c => { c with dirty := BitVec.allOnes 64 }) :=
  (recordAt_foldl_updateChart (fun _ => by rfl) allSlots s i).trans (if_pos (mem_allSlots i))

/-- A receiver back from absence sets every dirty flag (R121). -/
theorem recordAt_markPresent (stamp : Nat) (i : SlotNo) :
    recordAt (markPresent sender stamp s) i = (recordAt s i).map (fun c => { c with
      dirty := if s.ssv.peers[sender] = none ∧ sender.val < 8 then BitVec.allOnes 64 else c.dirty }) := by
  cases hpeer : s.ssv.peers[sender] with
  | some p => simp [markPresent, hpeer, recordAt_congr (t := setPeer sender _ s) (s := s) rfl]
  | none =>
    by_cases h8 : sender.val < 8
    · simp [markPresent, hpeer, h8, recordAt_setAllDirty, recordAt_congr (t := setPeer sender _ s) (s := s) rfl]
    · simp [markPresent, hpeer, h8, recordAt_congr (t := setPeer sender _ s) (s := s) rfl]

/-- A station heard is present since the stamp, with the roster it had (R156). -/
theorem ssv_markPresent (stamp : Nat) :
    (markPresent sender stamp s).ssv = { s.ssv with
      peers := s.ssv.peers.set sender (some ⟨stamp, (s.ssv.peers[sender]).bind (·.roster)⟩) } := by
  cases hpeer : s.ssv.peers[sender] with
  | some p => simp only [markPresent, hpeer]; rfl
  | none =>
    simp only [markPresent, hpeer]
    split
    · simp only [setAllDirty_keeps]; rfl
    · rfl

/-- The slot a frame's key reaches has been referenced at the stamp (R80). -/
theorem recordAt_refreshOf (p : Payload) (stamp : Nat) (i : SlotNo) :
    recordAt (refreshOf p stamp s) i = (recordAt s i).map (fun c => { c with
      lastReference := if p.chartKey.bind (slotOf s) = some i then stamp else c.lastReference }) := by
  unfold refreshOf refreshReference
  cases hkey : p.chartKey with
  | none => simp
  | some k =>
    cases hslot : slotOf s k with
    | none => simp [hslot]
    | some j =>
      by_cases hij : j = i
      · subst hij; simp [hslot, recordAt_updateChart]
      · simp [hslot, recordAt_updateChart, hij]

theorem cst_with_slots (hpages : u.cst.pages = s.cst.pages) (hfree : u.cst.free = s.cst.free)
    (hpool : u.cst.poolReported = s.cst.poolReported) (hptr : u.cst.evictPtr = s.cst.evictPtr)
    (hseq : u.cst.ownSequence = s.cst.ownSequence) : u.cst = { s.cst with slots := u.cst.slots } := by
  cases hu : u.cst
  simp_all only

theorem cst_heardBy (t : Nat) (p : Payload) :
    (heardBy t sender p s).cst = { s.cst with slots := (heardBy t sender p s).cst.slots } := by
  apply cst_with_slots <;> simp [heardBy]

theorem recessiveAfter_le (bits : List Bool) : recessiveAfter bits ≤ 11 := Nat.min_le_left _ _

/-- The line behind a frame heard, before the frame's own marks (R98). -/
def lineTaken (t : Nat) (sender : Station) (p : Payload) (s : State) : State :=
  { s with clock := max s.clock t, slc := { s.slc with
    lineState := .busy, rx := none,
    recessiveRun := recessiveAfter (fieldBits (kindField p.kind sender) ++ frameTail sender p) } }

theorem heardBy_running (h : s.phase = .running) (t : Nat) (p : Payload) :
    heardBy t sender p s =
      refreshOf p (stampAt t s) (bump 4 1 (markPresent sender (stampAt t s) (lineTaken t sender p s))) := by
  simp only [heardBy, advance_running _ _ h, frameEnded, Nat.min_eq_right (recessiveAfter_le _)]
  rfl

theorem slc_heardBy (h : s.phase = .running) (t : Nat) (p : Payload) : (heardBy t sender p s).slc = { s.slc with
    lineState := .busy, rx := none,
    recessiveRun := recessiveAfter (fieldBits (kindField p.kind sender) ++ frameTail sender p) } := by
  simp only [heardBy_running h, refreshOf_keeps, bump_slc, markPresent_keeps]
  rfl

theorem ssv_heardBy (h : s.phase = .running) (t : Nat) (p : Payload) : (heardBy t sender p s).ssv = { s.ssv with
    peers := s.ssv.peers.set sender (some ⟨stampAt t s, (s.ssv.peers[sender]).bind (·.roster)⟩)
    counters := s.ssv.counters.set 4 (min 65535 (s.ssv.counters[4] + 1)) } := by
  simp only [heardBy_running h, refreshOf_keeps, bump, ssv_markPresent]
  rfl

theorem recordAt_heardBy (h : s.phase = .running) (t : Nat) (p : Payload) (i : SlotNo) :
    recordAt (heardBy t sender p s) i = (recordAt s i).map (fun c => { c with
      dirty := if s.ssv.peers[sender] = none ∧ sender.val < 8 then BitVec.allOnes 64 else c.dirty
      lastReference := if p.chartKey.bind (slotOf s) = some i then stampAt t s else c.lastReference }) := by
  have hslot (k : Key) : slotOf (bump 4 1 (markPresent sender (stampAt t s) (lineTaken t sender p s))) k = slotOf s k :=
    slotOf_of_keysAt (fun i => keysAt_markPresent sender _ i) k
  have hmarked : recordAt (bump 4 1 (markPresent sender (stampAt t s) (lineTaken t sender p s))) i =
      (recordAt s i).map (fun c => { c with
        dirty := if s.ssv.peers[sender] = none ∧ sender.val < 8 then BitVec.allOnes 64 else c.dirty }) :=
    recordAt_markPresent _ i
  simp only [heardBy_running h, recordAt_refreshOf, hmarked, Option.map_map, funext hslot]
  rfl

/-- A frame heard is dispatched behind its marks, when its bytes are read back (R111). -/
theorem exec_heardCommand (h : hears s sender) (t : Nat) {p : Payload} (hl : lengthAllowed p.kind p.bytes.length = true)
    (hr : readData p.kind p.bytes = some p) :
    exec (heardCommand t sender p) s = .next (dispatch sender (stampAt t s) p (heardBy t sender p s)) := by
  have hcommand : exec (heardCommand t sender p) s = .next (hearFrame t p.kind sender (frameTail sender p) s) := by
    cases p <;> rfl
  rw [hcommand, hearFrame_frame t sender p s h hl hr]

end

/-! ### The frames the SSV only sends, read back (R180, R181) -/

theorem length_packWords (words : List (BitVec 16)) : (packWords words).length = 2 * words.length := by
  induction words with
  | nil => rfl
  | cons w rest ih => simp only [packWords, bytes16, List.length_append, List.length_cons, List.length_nil, ih]; omega

theorem unpackWords_packWords (words : List (BitVec 16)) : unpackWords (packWords words) = words := by
  induction words with
  | nil => rfl
  | cons w rest ih => simp only [packWords, bytes16, List.cons_append, List.nil_append, unpackWords, be16_bytes, ih]

theorem exec_infoHeard {s : State} {sender : Station} (h : hears s sender) (t : Nat) {p : Payload} (hsized : p.sized = true)
    (hkind : p.kind ∈ [Kind.describeK, .noteK, .reportK]) :
    exec (heardCommand t sender p) s = .next (heardBy t sender p s) := by
  cases p with
  | describeNullF requester k n => exact exec_heardCommand h t rfl rfl
  | describeF requester k d =>
    refine exec_heardCommand h t rfl ?_
    simp only [Payload.kind, Payload.bytes, keyBytes, bytes16, List.cons_append, List.nil_append, readData, be16_bytes]
  | noteF code tag k detail =>
    refine exec_heardCommand h t rfl ?_
    simp only [Payload.kind, Payload.bytes, keyBytes, bytes16, List.cons_append, List.nil_append, readData, be16_bytes]
  | reportF counters =>
    have hlength : (packWords counters).length = 32 := by
      have : counters.length = 16 := by simpa [Payload.sized] using hsized
      rw [length_packWords, this]
    refine exec_heardCommand h t ?_ ?_
    · simp only [Payload.kind, Payload.bytes, hlength]; rfl
    · simp only [Payload.kind, Payload.bytes, readData, hlength, if_true, unpackWords_packWords]
  | _ => simp [Payload.kind] at hkind

/-- Settles O32. The marks of a frame heard part by part, and no more for the frames the SSV only sends. -/
theorem heardFrameMarks : Obligations.HeardFrameMarks := by
  refine ⟨fun t sender p s hh => ?_, fun t sender p s hh hsized hkind => exec_infoHeard hh t hsized hkind⟩
  have hrunning := hh.1
  refine ⟨?_, ?_, ?_, ?_, ?_, heardBy_xen t sender p, cst_heardBy t p, slc_heardBy hrunning t p, ssv_heardBy hrunning t p,
    recordAt_heardBy hrunning t p⟩ <;>
    simp [heardBy_running hrunning, lineTaken, hrunning]

/-! ## A heard OPEN that meets a slot (R82, R84, R89, R90, R92) -/

section
variable {s : State} {k : Key} {rate : Rate} {tPeer : Int} {i : SlotNo} {o : Int}

theorem withdrawCandidate_iff : withdrawCandidate s rate tPeer i = some o ↔
    ∃ c tLocal, recordAt s i = some c ∧ s.xen.openReq[i] = .queued ∧ c.rate = rate ∧ c.localTransition = some tLocal ∧
      offsetWithin8 tLocal tPeer rate = some o := by
  cases hc : recordAt s i with
  | none => simp [withdrawCandidate, hc]
  | some c => cases ht : c.localTransition <;> simp [withdrawCandidate, hc, ht, and_assoc]

theorem aliasCandidate_iff : aliasCandidate s rate tPeer i = some o ↔
    ∃ c, recordAt s i = some c ∧ c.state = .live ∧ c.rate = rate ∧
      ∃ transition : Int, (if c.bound then c.localTransition.map (fun n => (n : Int)) else c.peerTransition) = some transition ∧
        offsetWithin8 transition tPeer rate = some o := by
  cases hc : recordAt s i with
  | none => simp [aliasCandidate, hc]
  | some c =>
    by_cases hlive : c.state = .live ∧ c.rate = rate
    · cases hbound : c.bound <;> cases hlocal : c.localTransition <;> cases hpeer : c.peerTransition <;>
        simp [aliasCandidate, hc, hlive, hbound, hlocal, hpeer]
    · simp only [aliasCandidate, hc, if_neg hlive]
      exact ⟨nofun, fun ⟨d, hd, hstate, hrate, _⟩ => absurd (Option.some.inj hd ▸ ⟨hstate, hrate⟩) hlive⟩

/-- An OPEN of own tag and unknown key is taken (R88). -/
theorem judgeOpen_takes {sender : Station} {stamp : Nat} {tag code : Byte} {delay : BitVec 16}
    (hr : rateOfCode code.toNat = some rate) (hopener : k.opener.toNat = sender.val) (h8 : sender.val < 8)
    (htag : tag.toNat = s.ssv.boot.tag) (hk : keyHeld s k = false) :
    judgeOpen sender stamp k tag code delay s = takeOpen k tag.toNat rate ((stamp : Int) - delay.toNat) s := by
  simp only [judgeOpen, hr]
  exact (if_neg (by omega)).trans (if_neg (by simp [htag, hk]))

/-- A heard OPEN of own tag and unknown key is taken on the state its hearing leaves (R88, R111). -/
theorem exec_openHeard_takes {sender : Station} {tag code : Byte} {delay : BitVec 16} (h : hears s sender) (t : Nat)
    (hr : rateOfCode code.toNat = some rate) (hopener : k.opener.toNat = sender.val) (h8 : sender.val < 8)
    (htag : tag.toNat = s.ssv.boot.tag) (hk : keyHeld s k = false) :
    let p := Payload.openF k tag code delay
    exec (.openHeard t sender (frameTail sender p)) s =
      .next (takeOpen k tag.toNat rate ((stampAt t s : Int) - delay.toNat) (heardBy t sender p s)) := by
  intro p
  rw [exec_openHeard h, judgeOpen_takes hr hopener h8 (by rwa [heardBy_boot]) (by rwa [keyHeld_heardBy])]

/-- The slots an OPEN may meet are those it could meet before it was heard (R89, R90). -/
theorem candidates_heardBy (t : Nat) (sender : Station) (p : Payload) (rate : Rate) (tPeer : Int) :
    withdrawCandidate (heardBy t sender p s) rate tPeer = withdrawCandidate s rate tPeer ∧
      aliasCandidate (heardBy t sender p s) rate tPeer = aliasCandidate s rate tPeer := by
  have hsame := candidates_of_unheard (unheard_heardBy t sender p) (heardBy_xen (s := s) t sender p) rate tPeer
  exact ⟨funext fun i => (hsame i).1, funext fun i => (hsame i).2⟩

theorem takeOpen_withdraws (tag : Nat) (h : nearestSlot (withdrawCandidate s rate tPeer) = some (i, o)) :
    takeOpen k tag rate tPeer s = withdrawOpen i o tPeer k s := by
  simp only [takeOpen, h]

theorem takeOpen_records (tag : Nat) (hnone : ∀ j, withdrawCandidate s rate tPeer j = none)
    (h : nearestSlot (aliasCandidate s rate tPeer) = some (i, o)) : takeOpen k tag rate tPeer s = recordAlias i k s := by
  simp only [takeOpen, nearestSlot_none hnone, h]

variable {c : Chart}

/-- The slot under its heard key, its own OPEN out of the queue, and all that was filed under the old key with it (R89). -/
theorem withdrawOpen_eq (hc : recordAt s i = some c) :
    withdrawOpen i o tPeer k s = raiseNote 1 (some k) (BitVec.ofInt 16 (o + 264))
      (replaceKeyEverywhere c.key k (setChart i (some { c with key := k, offset := some o, peerTransition := some tPeer })
        (setOpenReq i .nothing (withdrawEntries (Entry.isOpenOf i c.key) .remove s)))) := by
  have hrecord : recordAt (setOpenReq i .nothing (withdrawEntries (Entry.isOpenOf i c.key) .remove s)) i = some c :=
    (recordAt_congr (by simp) i).trans hc
  have hdetail : o + 8 + 256 = o + 264 := by omega
  simp only [withdrawOpen, hc, updateChart_eq hrecord, hdetail]

/-- The key replaced in a state whose slot has taken the heard one and has no open request (R89, R105, R137). -/
theorem replaceKeyEverywhere_setChart (old new : Key) (i : SlotNo) (d : Chart) (u : State) :
    replaceKeyEverywhere old new (setChart i (some d) (setOpenReq i .nothing u)) = { u with
      cst := { u.cst with slots := u.cst.slots.set i (some d) }
      xen := { u.xen with
        openReq := u.xen.openReq.set i .nothing
        claims := u.xen.claims.map (fun d => if d.key = old then { d with key := new } else d)
        build := u.xen.build.map (fun l => if l.key = old then { l with key := new } else l) }
      slc := { u.slc with queue := requestEntries (fun _ => true) (.replaceKey old new) u.slc.queue } } := by
  have hclaims : u.xen.claims.map (Claim.rekeyed old new) =
      u.xen.claims.map (fun d => if d.key = old then { d with key := new } else d) :=
    List.map_congr_left fun d _ => by unfold Claim.rekeyed swapKey; split <;> rfl
  have hbuild : u.xen.build.map (BuildLine.rekeyed old new) =
      u.xen.build.map (fun l => if l.key = old then { l with key := new } else l) :=
    List.map_congr_left fun l _ => by unfold BuildLine.rekeyed swapKey; split <;> rfl
  rw [← hclaims, ← hbuild]
  rfl

theorem keyNumber_eq (k : Key) : keyNumber k = BitVec.ofNat 16 (k.opener.toNat * 256 + k.sequence.toNat) := by
  apply BitVec.eq_of_toNat_eq
  have hseq : k.sequence.toNat < 2 ^ 8 := k.sequence.isLt
  have hopener := k.opener.isLt
  rw [keyNumber, be16, BitVec.toNat_append, ← Nat.shiftLeft_add_eq_or_of_lt hseq, Nat.shiftLeft_eq, BitVec.toNat_ofNat,
    Nat.mod_eq_of_lt (by omega)]

/-- A slot that has a second key ignores the OPEN (R92). -/
theorem recordAlias_ignored (hc : recordAt s i = some c) (h : c.otherKey ≠ none) : recordAlias i k s = s := by
  simp only [recordAlias, hc, if_pos (Option.isSome_iff_ne_none.mpr h)]

/-- A slot without a second key records it, notes it, and repeats its OPEN under an own key (R84, R90, R92). -/
theorem recordAlias_records (hc : recordAt s i = some c) (h : c.otherKey = none) :
    let noted := raiseNote 2 (some c.key) (keyNumber k) (setChart i (some { c with otherKey := some k }) s)
    recordAlias i k s = if c.key.opener.toNat = s.ssv.own.val then
      setOpenReq i (if (enqueue (openEntry .cst i c) noted).2 then .queued else .owed) (enqueue (openEntry .cst i c) noted).1
    else noted := by
  intro noted
  have hrecord : recordAt noted i = some { c with otherKey := some k } :=
    (recordAt_raiseNote ..).trans (recordAt_setChart_same ..)
  have hown : noted.ssv.own = s.ssv.own := by simp [noted]
  simp only [recordAlias, hc, h, Option.isSome_none, Bool.false_eq_true, if_false]
  change (if c.key.opener.toNat = noted.ssv.own.val then queueOpen .cst i noted else noted) = _
  rw [hown, queueOpen_eq hrecord]
  rfl
end

/-- Settles O35. The withdrawal on the state the hearing leaves, where the candidates are as before. -/
theorem openWithdraws : Obligations.OpenWithdraws := by
  refine ⟨fun s r tPeer i o => withdrawCandidate_iff, ?_⟩
  intro s t sender k tag rate delay r i o c hh hr hopener h8 htag hk p b tPeer hnear hc isOpen out
  have hisOpen : isOpen = Entry.isOpenOf i c.key := funext fun e => by
    cases e with
    | mk payload => cases payload <;> rfl
  have hout : out = withdrawEntries (Entry.isOpenOf i c.key) .remove b := by simp only [out, hisOpen]; rfl
  rw [exec_openHeard_takes hh t hr hopener h8 htag hk,
    takeOpen_withdraws _ (by rw [(candidates_heardBy t sender p r tPeer).1]; exact hnear), withdrawOpen_eq hc, ← hout]
  exact congrArg (fun u => Host.Outcome.next (raiseNote 1 (some k) (BitVec.ofInt 16 (o + 264)) u))
    (replaceKeyEverywhere_setChart c.key k i _ out)

/-- Settles O36. -/
theorem openRecorded : Obligations.OpenRecorded := by
  refine ⟨fun s r tPeer i o => aliasCandidate_iff, ?_⟩
  intro s t sender k tag rate delay r i o c hh hr hopener h8 htag hk p b tPeer hnone hnear hc noted offer
  rw [exec_openHeard_takes hh t hr hopener h8 htag hk,
    takeOpen_records _ (fun j => (congrFun (candidates_heardBy t sender p r tPeer).1 j).trans (hnone j))
      (by rw [(candidates_heardBy t sender p r tPeer).2]; exact hnear)]
  congr 1
  by_cases hother : c.otherKey = none
  · have hown : b.ssv.own = s.ssv.own := by simp [b, ssv_heardBy hh.1]
    have hxen : offer.1.xen = s.xen :=
      (show offer.1.xen = b.xen by simp [offer, noted]).trans (heardBy_xen t sender p)
    rw [if_neg (not_not.mpr hother), recordAlias_records hc hother, keyNumber_eq, hown, ← hxen]
    rfl
  · rw [if_pos hother, recordAlias_ignored hc hother]

/-! ## The link restart (R97, R116, R133, R155, R165, R166) -/

/-- No station is present (R166). -/
def peersForgotten (s : State) : State := { s with ssv := { s.ssv with peers := Vector.replicate 16 none } }

/-- The state a link restart leaves behind its ROSTER (R166). -/
def linkCleared (sender : Station) (stamp : Nat) (s : State) : State :=
  markPresent sender stamp (peersForgotten (setAllDirty (clearExchange (flushQueue s))))

section
variable {s : State} {sender : Station} {stamp : Nat}

theorem recordAt_linkCleared (i : SlotNo) :
    recordAt (linkCleared sender stamp s) i = (recordAt s i).map (fun c => { c with dirty := BitVec.allOnes 64 }) := by
  have hdirty : recordAt (peersForgotten (setAllDirty (clearExchange (flushQueue s)))) i =
      (recordAt (clearExchange (flushQueue s)) i).map (fun c => { c with dirty := BitVec.allOnes 64 }) :=
    (recordAt_congr (s := setAllDirty (clearExchange (flushQueue s))) (by simp only [peersForgotten]) i).trans
      (recordAt_setAllDirty i)
  rw [linkCleared, recordAt_markPresent, hdirty, Option.map_map, recordAt_congr (s := s) (by simp)]
  simp [Function.comp_def, peersForgotten]

theorem xen_linkCleared : (linkCleared sender stamp s).xen = { s.xen with
    views := Vector.replicate 4 .empty, openReq := Vector.ofFn (restartRequest s), claims := [], build := [],
    assemblies := [] } := by
  simp only [linkCleared, markPresent_keeps, peersForgotten, setAllDirty_keeps]
  rfl

theorem slc_linkCleared :
    (linkCleared sender stamp s).slc = { s.slc with queue := [], silent := none, damageRun := 0 } := by
  simp only [linkCleared, markPresent_keeps, peersForgotten, setAllDirty_keeps]
  rfl

theorem ssv_linkCleared : (linkCleared sender stamp s).ssv = { s.ssv with
    peers := (Vector.replicate 16 none).set sender (some ⟨stamp, none⟩) } := by
  simp [linkCleared, ssv_markPresent, peersForgotten, clearExchange, flushQueue]

theorem cst_linkCleared :
    (linkCleared sender stamp s).cst = { s.cst with slots := (linkCleared sender stamp s).cst.slots } := by
  apply cst_with_slots <;> simp [linkCleared, peersForgotten]

theorem rosterFrame_congr {u : State} (hlcu : u.lcu = s.lcu) (hboot : u.ssv.boot = s.ssv.boot)
    (hstatus : u.ssv.status = s.ssv.status) (hversion : u.ssv.version = s.ssv.version) (hfree : u.cst.free = s.cst.free)
    (hslots : ∀ i, (recordAt u i).isNone = (recordAt s i).isNone) : rosterFrame u = rosterFrame s := by
  simp only [rosterFrame, freeSlots, hlcu, hboot, hstatus, hversion, hfree, hslots]

theorem linkRestart_eq :
    linkRestart sender stamp s = setQueue [newEntry (rosterFrame s) .ssv] (linkCleared sender stamp s) := by
  have hroster : rosterFrame (linkCleared sender stamp s) = rosterFrame s :=
    rosterFrame_congr (by simp [linkCleared, peersForgotten]) (by rw [ssv_linkCleared]) (by rw [ssv_linkCleared])
      (by rw [ssv_linkCleared]) (by rw [cst_linkCleared]) fun i => by rw [recordAt_linkCleared, Option.isNone_map]
  have hqueue : (linkCleared sender stamp s).slc.queue = [] := by rw [slc_linkCleared]
  calc linkRestart sender stamp s
    _ = (enqueue (newEntry (rosterFrame s) .ssv) (linkCleared sender stamp s)).1 := by rw [← hroster]; rfl
    _ = setQueue [newEntry (rosterFrame s) .ssv] (linkCleared sender stamp s) := by
        unfold enqueue
        rw [hqueue]
        rfl

theorem exec_restartHeard (h : hears s sender) (t : Nat) (mask : BitVec 16) :
    let p := Payload.restartF mask
    exec (.restartHeard t sender (frameTail sender p)) s =
      .next (judgeRestart sender (stampAt t s) mask (heardBy t sender p s)) := by
  have hread : readData .restartK (Payload.restartF mask).bytes = some (.restartF mask) := by
    simp only [Payload.bytes, bytes16, readData, be16_bytes]
  exact exec_heardCommand (p := .restartF mask) h t rfl hread

theorem restartRequest_eq (i : SlotNo) : restartRequest s i =
    if s.xen.openReq[i] = .queued then (if (recordAt s i).any (fun c => c.state == .live) then .owed else .nothing)
    else s.xen.openReq[i] := by
  cases hc : recordAt s i <;> simp [restartRequest, hc]

/-- The open requests behind a restart read the requests and the slots' states alone (R97). -/
theorem restartRequest_heardBy (h : s.phase = .running) (t : Nat) (p : Payload) (i : SlotNo) :
    restartRequest (heardBy t sender p s) i = restartRequest s i := by
  simp only [restartRequest_eq, heardBy_xen, recordAt_heardBy h, Option.any_map]

theorem rosterFrame_heardBy (h : s.phase = .running) (t : Nat) (p : Payload) :
    rosterFrame (heardBy t sender p s) = rosterFrame s :=
  rosterFrame_congr (by simp [heardBy]) (by rw [ssv_heardBy h]) (by rw [ssv_heardBy h]) (by rw [ssv_heardBy h])
    (by rw [cst_heardBy]) fun i => by rw [recordAt_heardBy h, Option.isNone_map]

end

/-- Settles O44. The restart on the state its hearing leaves, and its ROSTER alone in the queue. -/
theorem linkRestartClearsExchange : Obligations.LinkRestartClearsExchange := by
  intro s t sender mask hh p
  have hrun := hh.1
  have hown : (heardBy t sender p s).ssv.own = s.ssv.own := by rw [ssv_heardBy hrun]
  rw [exec_restartHeard hh t mask]
  refine ⟨fun hmask => congrArg _ (if_neg (by rw [hown, hmask]; decide)),
    fun hmask => ⟨_, congrArg _ ((if_pos (hown ▸ hmask)).trans linkRestart_eq), ?_⟩⟩
  have hslots (i : SlotNo) : recordAt (linkCleared sender (stampAt t s) (heardBy t sender p s)) i =
      (recordAt s i).map (fun c => { c with dirty := BitVec.allOnes 64 }) := by
    rw [recordAt_linkCleared, recordAt_heardBy hrun, Option.map_map]
    simp [Function.comp_def, p, Payload.chartKey]
  refine ⟨?lcu, ?lfr, ?clock, ?pending, ?cst, hslots, ?xen, ?views, ?requests, ?slc, ?ssv, ?peers⟩
  case lcu => simp [linkCleared, peersForgotten, heardBy]
  case lfr => simp [linkCleared, peersForgotten, heardBy]
  case clock => simp [linkCleared, peersForgotten, heardBy_running hrun, lineTaken]
  case pending => simp [linkCleared, peersForgotten, heardBy]
  case cst => rw [setQueue_cst, cst_linkCleared, cst_heardBy]
  case xen => rw [setQueue_xen, xen_linkCleared, heardBy_xen]
  case views =>
    intro i r
    rw [setQueue_xen, xen_linkCleared]
    simp [PeerView.empty]
  case requests =>
    intro i
    rw [setQueue_xen, xen_linkCleared, ← restartRequest_eq, ← restartRequest_heardBy (sender := sender) hrun t p]
    simp [p]
  case slc => rw [setQueue, slc_linkCleared, slc_heardBy hrun, rosterFrame_heardBy hrun]
  case ssv => rw [setQueue_ssv, ssv_linkCleared, ssv_heardBy hrun]
  case peers =>
    intro st
    rw [setQueue_ssv, ssv_linkCleared]
    by_cases hst : st = sender
    · simp [hst]
    · have hne : sender.val ≠ st.val := fun h => hst (Fin.ext h.symm)
      simp [hst, hne]

/-! ## The want timer and its round (R84, R87, R124, R127 to R129) -/

section
variable {s : State} {i : SlotNo} {c : Chart}

/-! ### The timer (R87, R124) -/

theorem exec_wantTimerExpiry {due : Nat} (h : s.phase = .running) (hc : recordAt s i = some c) (hdue : c.wantDue = some due)
    (t : Nat) (hreached : due ≤ stampAt t s) :
    exec (.wantTimerExpiry t i) s = .next (wantRound i (resendOpen i
      (setChart i (some { c with wantDue := some (due + 4000) }) { s with clock := max s.clock t }))) := by
  have hadvanced : recordAt (advance t s) i = some c := (recordAt_congr (by simp) i).trans hc
  have hisDue : isDue due (advance t s) = true := by
    rw [advance_running _ _ h]; exact reached_advanced h rfl hreached
  have hexec : exec (.wantTimerExpiry t i) s = execWantTimerExpiry t i s := rfl
  simp only [hexec, execWantTimerExpiry, hadvanced, Option.bind_some, hdue, hisDue, if_true, wantExpiry,
    updateChart_eq hadvanced]
  rw [advance_running _ _ h]
  rfl

/-- An owed OPEN of a LIVE slot goes to the queue again, by the XEN (R87). -/
theorem resendOpen_owed (hc : recordAt s i = some c) (h : c.state = .live ∧ s.xen.openReq[i] = .owed) :
    resendOpen i s =
      setOpenReq i (if (enqueue (openEntry .xen i c) s).2 then .queued else .owed) (enqueue (openEntry .xen i c) s).1 := by
  simp only [resendOpen, hc, if_pos h, queueOpen_eq hc]

theorem resendOpen_settled (hc : recordAt s i = some c) (h : ¬ (c.state = .live ∧ s.xen.openReq[i] = .owed)) :
    resendOpen i s = s := by
  simp only [resendOpen, hc, if_neg h]

/-! ### The round (R127 to R129) -/

theorem getLsbD_lineMask_foldl (places : List Nat) (mask : BitVec 32) {n : Nat} (hn : n < 32) :
    (places.foldl (fun m i => m ||| BitVec.twoPow 32 i) mask).getLsbD n = (mask.getLsbD n || decide (n ∈ places)) := by
  induction places generalizing mask with
  | nil => simp
  | cons p rest ih =>
    rw [List.foldl_cons, ih]
    by_cases hp : n = p
    · simp [hp, hp ▸ hn]
    · simp [hp, Ne.symm hp]

/-- A line mask sets the places it is given (R179). -/
theorem getLsbD_lineMask (places : List Nat) {n : Nat} (hn : n < 32) : (lineMask places).getLsbD n = decide (n ∈ places) :=
  (getLsbD_lineMask_foldl places 0 hn).trans (by simp)

theorem getLsbD_wantedMask (b : Nat) {n : Nat} (hn : n < 32) :
    (lineMask (wantedPlaces s i c b)).getLsbD n = wanted s i c (32 * b + n) := by
  rw [getLsbD_lineMask _ hn, Bool.eq_iff_iff]
  simp [wantedPlaces, hn]

theorem wantedPlaces_nonempty_iff (b : Nat) :
    (wantedPlaces s i c b).isEmpty = false ↔ ∃ n, n < 32 ∧ wanted s i c (32 * b + n) = true := by
  rw [List.isEmpty_eq_false_iff_exists_mem]
  simp [wantedPlaces]

/-- A block with a wanted line and a station to ask (R127). -/
def Askable (s : State) (i : SlotNo) (c : Chart) (b : Nat) : Prop :=
  (∃ n, n < 32 ∧ wanted s i c (32 * b + n) = true) ∧ blockAddress s i c b ≠ 0

theorem askable_iff (b : Nat) :
    (!(wantedPlaces s i c b).isEmpty && blockAddress s i c b != 0) = true ↔ Askable s i c b := by
  rw [Bool.and_eq_true, Bool.not_eq_true', wantedPlaces_nonempty_iff, bne_iff_ne]
  rfl

theorem chosenBlock_eq_none (h : ∀ b, b < 64 → ¬ Askable s i c b) : chosenBlock s i c = none :=
  List.find?_eq_none.mpr fun b hb => (askable_iff b).not.mpr (h b (List.mem_range.mp hb))

theorem chosenBlock_eq_some {b : Nat} (hb : b < 64) (h : Askable s i c b) (hfirst : ∀ a, a < b → ¬ Askable s i c a) :
    chosenBlock s i c = some b :=
  List.find?_range_eq_some.mpr ⟨(askable_iff b).mpr h, List.mem_range.mpr hb,
    fun a ha => by rw [Bool.not_eq_true', ← Bool.not_eq_true]; exact (askable_iff a).not.mpr (hfirst a ha)⟩

theorem wantRound_idle (hc : recordAt s i = some c) (h : chosenBlock s i c = none) : wantRound i s = s := by
  simp only [wantRound, hc, h]

theorem wantRound_asks (hc : recordAt s i = some c) {b : Nat} (h : chosenBlock s i c = some b) :
    let offer := enqueue (newEntry (wantFrame s i c b) .xen) s
    wantRound i s = if offer.2 then bump 11 1 offer.1 else offer.1 := by
  simp only [wantRound, hc, h]

end

/-- Settles O48. The timer and the OPEN it resends, then the first block its round finds. -/
theorem wantTimerExpires : Obligations.WantTimerExpires := by
  constructor
  · intro s t due i c hrun hc hdue hreached ticked offer
    have hticked : recordAt ticked i = some { c with wantDue := some (due + 4000) } := recordAt_setChart_same ..
    have hxen : offer.1.xen = s.xen := show offer.1.xen = ticked.xen by simp [offer]
    rw [exec_wantTimerExpiry hrun hc hdue t hreached]
    refine ⟨fun howed => ?_, fun hsettled => ?_⟩
    · have hresent := resendOpen_owed hticked howed
      rw [hresent, ← hxen]
      rfl
    · rw [resendOpen_settled hticked hsettled]
  · intro s i c hc
    refine ⟨fun hnone => ?_, fun b hb hwanted haddress hfirst => ?_⟩
    · exact wantRound_idle hc (chosenBlock_eq_none fun b hb hask => hask.2 (hnone b hb hask.1))
    · have hchosen : chosenBlock s i c = some b :=
        chosenBlock_eq_some hb ⟨hwanted, haddress⟩ fun a ha hask => hask.2 (hfirst a ha hask.1)
      exact ⟨lineMask (wantedPlaces s i c b), fun n hn => getLsbD_wantedMask b hn, wantRound_asks hc hchosen⟩

end Sys2Proof.Machine

/-! Proofs for chapters 6 and 11, the share line and its frames, with the timers that wait for their time. -/

namespace Sys2Proof.Machine

/-! ## Every payload is read back from its bytes (R110, R179 to R181) -/

theorem be32_bytes (w : BitVec 32) :
    be32 (w.extractLsb' 24 8) (w.extractLsb' 16 8) (w.extractLsb' 8 8) (w.extractLsb' 0 8) = w := by
  have hhigh : w.extractLsb' 24 8 ++ w.extractLsb' 16 8 = w.extractLsb' 16 16 :=
    BitVec.extractLsb'_append_extractLsb'_eq_extractLsb' rfl
  have hlow : w.extractLsb' 8 8 ++ w.extractLsb' 0 8 = w.extractLsb' 0 16 :=
    BitVec.extractLsb'_append_extractLsb'_eq_extractLsb' rfl
  rw [be32, hhigh, hlow]
  exact (BitVec.extractLsb'_append_extractLsb'_eq_extractLsb' (start₁ := 0) rfl).trans BitVec.extractLsb'_eq_self

/-- Codes packed two a byte are read back when there are an even number of them (R179). -/
theorem unpackCodes_packCodes (n : Nat) (codes : List (BitVec 4)) (h : codes.length = 2 * n) :
    unpackCodes (packCodes codes) = codes ∧ (packCodes codes).length = n := by
  induction n generalizing codes with
  | zero => rw [List.eq_nil_of_length_eq_zero h]; exact ⟨rfl, rfl⟩
  | succ n ih =>
    match codes with
    | [] => simp at h
    | [_] => simp at h; omega
    | a :: b :: rest =>
      obtain ⟨hread, hlength⟩ := ih rest (by simp at h; omega)
      simp only [packCodes, unpackCodes, hread, List.length_cons, hlength, and_true]
      rw [BitVec.extractLsb'_append_eq_left, BitVec.extractLsb'_append_eq_right]

/-- The payloads of one layout: they are read back and have an allowed length. -/
theorem readData_bytes {p : Payload} (h : p.sized = true) :
    readData p.kind p.bytes = some p ∧ lengthAllowed p.kind p.bytes.length = true := by
  cases p with
  | tallyF k base codes =>
    obtain ⟨hread, hlength⟩ := unpackCodes_packCodes 16 codes (by simpa [Payload.sized] using h)
    simp [Payload.kind, Payload.bytes, keyBytes, bytes16, readData, lengthAllowed, be16_bytes, hread, hlength]
  | claimF k base mask codes =>
    obtain ⟨hread, hlength⟩ := unpackCodes_packCodes 16 codes (by simpa [Payload.sized] using h)
    simp [Payload.kind, Payload.bytes, keyBytes, bytes16, bytes32, readData, lengthAllowed, be16_bytes, be32_bytes,
      hread, hlength]
  | wantF k base mask codes stations =>
    obtain ⟨hread, hlength⟩ := unpackCodes_packCodes 16 codes (by simpa [Payload.sized] using h)
    simp [Payload.kind, Payload.bytes, keyBytes, bytes16, bytes32, readData, lengthAllowed, be16_bytes, be32_bytes,
      hread, hlength]
  | reportF counters =>
    have hlength : (packWords counters).length = 32 := by
      rw [length_packWords, show counters.length = 16 by simpa [Payload.sized] using h]
    simp [Payload.kind, Payload.bytes, readData, lengthAllowed, hlength, unpackWords_packWords]
  | lineF k index count fragment q u runs =>
    simp only [Payload.sized, Bool.and_eq_true, decide_eq_true_eq] at h
    exact ⟨readData_line k index count fragment q u h.1 h.2, lengthAllowed_line k index count fragment q u h.1 h.2⟩
  | _ => simp [Payload.kind, Payload.bytes, keyBytes, bytes16, readData, lengthAllowed, be16_bytes]

/-- Settles O22. -/
theorem frameLayoutsReadBack : Obligations.FrameLayoutsReadBack := fun _ h => readData_bytes h

/-! ## The check register (R100) -/

/-- The bit fed back into the check register stands in its last place. -/
theorem checkStep_lsb (register : BitVec 16) (bit : Bool) :
    (checkStep register bit).getLsbD 0 = (register.msb != bit) := by
  unfold checkStep
  cases register.msb != bit <;> simp

theorem checkStep_injective (bit : Bool) : Function.Injective (checkStep · bit) := by
  intro a b hab
  dsimp only at hab
  have hfed : (a.msb != bit) = (b.msb != bit) := by rw [← checkStep_lsb, ← checkStep_lsb, hab]
  have hmsb : a.msb = b.msb := Bool.bne_left_inj.mp hfed
  have hshift : a <<< 1 = b <<< 1 := by
    unfold checkStep at hab
    rw [hfed] at hab
    cases hb : b.msb != bit <;> simpa [hb] using hab
  refine BitVec.eq_of_getLsbD_eq fun i hi => ?_
  rcases Nat.lt_or_ge i 15 with h | h
  · have := congrArg (fun w : BitVec 16 => w.getLsbD (i + 1)) hshift
    simpa [BitVec.getLsbD_shiftLeft, show i + 1 < 16 by omega, BitVec.getLsbD_eq_getElem hi] using this
  · obtain rfl : i = 15 := by omega
    simpa [BitVec.msb_eq_getLsbD_last] using hmsb

theorem foldl_checkStep_injective (bits : List Bool) : Function.Injective (bits.foldl checkStep ·) := by
  induction bits with
  | nil => exact fun _ _ h => h
  | cons b rest ih => exact ih.comp (checkStep_injective b)

/-- One wrong bit changes the check register, and no bit behind it changes it back (R100). -/
theorem foldl_checkStep_wrongBit (before after : List Bool) (b : Bool) (register : BitVec 16) :
    (before ++ b :: after).foldl checkStep register ≠ (before ++ (!b) :: after).foldl checkStep register := by
  intro h
  simp only [List.foldl_append, List.foldl_cons] at h
  have hstep := congrArg (·.getLsbD 0) (foldl_checkStep_injective after h)
  simp only [checkStep_lsb] at hstep
  cases b <;> simp at hstep

/-! ## The bits of a field (R99, R179) -/

theorem bitsValue_concat (bits : List Bool) (b : Bool) : bitsValue (bits ++ [b]) = Nat.bit b (bitsValue bits) := by
  simp only [bitsValue, List.foldl_append, List.foldl_cons, List.foldl_nil, Nat.bit_val]

/-- The bits of a number that bits spell are these, the last of them the least. -/
theorem testBit_bitsValue (bits : List Bool) (i : Nat) : (bitsValue bits).testBit i = bits.reverse.getD i false := by
  induction bits using List.reverseRecOn generalizing i with
  | nil => simp [bitsValue]
  | append_singleton rest b ih =>
    rw [bitsValue_concat, List.reverse_append, List.reverse_singleton, List.singleton_append]
    cases i with
    | zero => simp
    | succ i => rw [Nat.testBit_bit_succ, ih]; simp

/-- A field of as many bits as spell its number has these bits. -/
theorem fieldBits_bitsValue {n : Nat} {bits : List Bool} (h : bits.length = n) :
    fieldBits (BitVec.ofNat n (bitsValue bits)) = bits := by
  refine List.ext_getElem (by simp [h]) fun i hi hi' => ?_
  simp only [fieldBits_length] at hi
  simp only [fieldBits, List.getElem_map, List.getElem_range, BitVec.getMsbD, BitVec.getLsbD_ofNat, testBit_bitsValue]
  have hlt : n - 1 - i < n := by omega
  simp [hi, hlt, h, show n - 1 - (n - 1 - i) = i by omega]

theorem arbitrationField_toNat (pr : BitVec 2) (sender : Station) (kind : BitVec 5) :
    (arbitrationField pr sender kind).toNat = pr.toNat * 512 + sender.val * 32 + kind.toNat := by
  have hs : (BitVec.ofNat 4 sender.val).toNat = sender.val := by rw [BitVec.toNat_ofNat]; omega
  rw [arbitrationField, BitVec.toNat_append, BitVec.toNat_append, ← Nat.shiftLeft_add_eq_or_of_lt kind.isLt,
    ← Nat.shiftLeft_add_eq_or_of_lt (BitVec.isLt _), hs, Nat.shiftLeft_eq, Nat.shiftLeft_eq]
  omega

/-- The fields that eleven bits spell make up these bits (R99, R179). -/
theorem readFields_bits {field : List Bool} (hf : field.length = 11) {data data' : List Byte} {pr : BitVec 2} {sender : Station}
    {kind : BitVec 5} (h : readFields field data = .intact pr sender kind data') :
    field = fieldBits (arbitrationField pr sender kind) ∧ data = data' := by
  simp only [readFields, Verdict.intact.injEq] at h
  obtain ⟨rfl, rfl, rfl, rfl⟩ := h
  have hsender (n : Nat) : BitVec.ofNat 4 (Fin.ofNat 16 n).val = BitVec.ofNat 4 n := by
    apply BitVec.eq_of_toNat_eq; simp
  refine ⟨?_, rfl⟩
  rw [arbitrationField, fieldBits_append, fieldBits_append, hsender, fieldBits_bitsValue (by simp [hf]),
    fieldBits_bitsValue (by simp [hf]), fieldBits_bitsValue (by simp [hf]), List.append_assoc,
    show field.drop 6 = (field.drop 2).drop 4 by simp, List.take_append_drop, List.take_append_drop]

/-! ## Bytes on the wire (R99) -/

theorem wireBytes_length (bytes : List Byte) : (bytes.flatMap wireByte).length = 9 * bytes.length := by
  induction bytes with
  | nil => rfl
  | cons b rest ih => simp [wireByte, ih]; omega

theorem take_wireBytes (bytes : List Byte) (k : Nat) :
    (bytes.flatMap wireByte).take (9 * k) = (bytes.take k).flatMap wireByte := by
  induction bytes generalizing k with
  | nil => simp
  | cons b rest ih =>
    cases k with
    | zero => simp
    | succ k =>
      rw [List.flatMap_cons, List.take_succ_cons, List.flatMap_cons, ← ih k, List.take_append]
      have : (wireByte b).length = 9 := by simp [wireByte]
      rw [List.take_of_length_le (by omega), this]
      congr 2

/-- Bytes are taken from just the bits that put them on the wire. -/
theorem readBytes_got {n : Nat} {bits : List Bool} {bytes : List Byte} {rest : List Bool}
    (h : readBytes n bits = .got bytes rest) : bytes.length = n ∧ bits = bytes.flatMap wireByte ++ rest := by
  induction n generalizing bits bytes with
  | zero => cases h; exact ⟨rfl, rfl⟩
  | succ n ih =>
    match bits with
    | [] => cases h
    | true :: more => simp only [readBytes] at h; split at h <;> cases h
    | false :: more =>
      simp only [readBytes] at h
      split at h
      · cases h
      · next hlong =>
        cases hmore : readBytes n (more.drop 8) with
        | got bytes' rest' =>
          rw [hmore] at h
          cases h
          obtain ⟨hlength, hbits⟩ := ih hmore
          refine ⟨congrArg (· + 1) hlength, ?_⟩
          rw [List.flatMap_cons, wireByte, fieldBits_bitsValue (by simp; omega), List.cons_append, List.cons_append,
            List.append_assoc, ← hbits, List.take_append_drop]
        | unread => rw [hmore] at h; cases h
        | broken => rw [hmore] at h; cases h

/-- A recessive separator behind the bytes read, as the last bit, breaks the frame off. -/
theorem readBytes_separator {n : Nat} {bytes : List Byte} (h : bytes.length < n) :
    readBytes n (bytes.flatMap wireByte ++ [true]) = .broken := by
  induction n generalizing bytes with
  | zero => cases h
  | succ n ih =>
    cases bytes with
    | nil => rfl
    | cons b rest =>
      have hbits : (b :: rest).flatMap wireByte ++ [true] = false :: (fieldBits b ++ (rest.flatMap wireByte ++ [true])) := by
        simp [wireByte]
      rw [hbits, readBytes, if_neg (by simp), List.drop_left' (fieldBits_length b), ih (by simpa using h)]

/-- Behind a frame broken off no bit is judged again. -/
theorem readBytes_broken_append {n : Nat} {bits : List Bool} (h : readBytes n bits = .broken) (b : Bool)
    (more : List Bool) : readBytes n (bits ++ b :: more) = .unread := by
  induction n generalizing bits with
  | zero => cases h
  | succ n ih =>
    match bits with
    | [] => cases h
    | true :: rest => simp [readBytes]
    | false :: rest =>
      simp only [readBytes] at h
      split at h
      · cases h
      · next hlong =>
        split at h
        · cases h
        · next hbroken =>
          rw [List.cons_append, readBytes, if_neg (by simp; omega), List.drop_append_of_le_length (by omega), ih h]

/-! ## The end bits (R99) -/

/-- Recessive end bits leave the judgement to those behind them. -/
theorem readEnd_recessive (v : Verdict) (m n : Nat) (bits : List Bool) :
    readEnd v (m + n) (List.replicate m true ++ bits) = readEnd v n bits := by
  induction m with
  | zero => simp
  | succ m ih => rw [Nat.succ_add, List.replicate_succ, List.cons_append, readEnd, ih]

theorem readEnd_eq_damaged_iff {v : Verdict} (hv : v ≠ .damaged) {n : Nat} {bits : List Bool} :
    readEnd v n bits = .damaged ↔ ∃ m, m < n ∧ bits = List.replicate m true ++ [false] := by
  constructor
  · intro h
    induction n generalizing bits with
    | zero => cases bits <;> simp_all [readEnd]
    | succ n ih =>
      match bits with
      | [] => simp [readEnd] at h
      | true :: rest =>
        obtain ⟨m, hm, rfl⟩ := ih h
        exact ⟨m + 1, by omega, rfl⟩
      | [false] => exact ⟨0, by omega, rfl⟩
      | false :: _ :: _ => simp [readEnd] at h
  · rintro ⟨m, hm, rfl⟩
    obtain ⟨k, rfl⟩ := Nat.exists_eq_add_of_lt hm
    rw [Nat.add_assoc, readEnd_recessive, readEnd]

/-- An intact frame has all its end bits recessive. -/
theorem readEnd_eq_intact {v : Verdict} {n : Nat} {bits : List Bool} {pr : BitVec 2} {sender : Station} {kind : BitVec 5}
    {data : List Byte} (h : readEnd v n bits = .intact pr sender kind data) :
    bits = List.replicate n true ∧ v = .intact pr sender kind data := by
  induction n generalizing bits with
  | zero => cases bits <;> simp_all [readEnd]
  | succ n ih =>
    match bits with
    | [] => simp [readEnd] at h
    | true :: rest =>
      obtain ⟨rfl, hv⟩ := ih h
      exact ⟨rfl, hv⟩
    | [false] => simp [readEnd] at h
    | false :: _ :: _ => simp [readEnd] at h

theorem readEnd_append {v : Verdict} {n : Nat} {bits : List Bool} (h : readEnd v n bits ≠ .undecided) (b : Bool)
    (more : List Bool) : readEnd v n (bits ++ b :: more) = .undecided := by
  induction n generalizing bits with
  | zero => cases bits <;> simp_all [readEnd]
  | succ n ih =>
    match bits with
    | [] => simp [readEnd] at h
    | true :: rest => exact ih h
    | [false] => simp [readEnd]
    | false :: _ :: _ => simp [readEnd] at h

/-! ## The judgement of bits (R99, R100) -/

/-- Bits with a whole field, length, data and check sequence are judged by the check register and their end bits. -/
theorem judgeBits_packed {field : List Bool} (hf : field.length = 11) (n : Byte) {bytes : List Byte} (hb : bytes.length = n.toNat + 2)
    (rest : List Bool) :
    judgeBits (field ++ (n :: bytes).flatMap wireByte ++ rest) =
      if bytes.drop n.toNat = bytes16 (checkOver field (n :: bytes.take n.toNat)) then
        readEnd (readFields field (bytes.take n.toNat)) 7 rest
      else if rest.isEmpty then .damaged else .undecided := by
  have hbits : field ++ (n :: bytes).flatMap wireByte ++ rest =
      field ++ ([n].flatMap wireByte ++ (bytes.flatMap wireByte ++ rest)) := by simp
  have hlength := readBytes_wire [n] (bytes.flatMap wireByte ++ rest)
  rw [List.length_singleton] at hlength
  rw [hbits, judgeBits, if_neg (by simp [hf]), List.drop_left' hf, List.take_left' hf, hlength]
  dsimp only
  rw [← hb, readBytes_wire]

/-- Bits are judged behind a whole check sequence, or where a recessive separator breaks the frame off. -/
theorem judgeBits_decided {bits : List Bool} (h : judgeBits bits ≠ .undecided) :
    (∃ (field : List Bool) (n : Byte) (bytes : List Byte) (rest : List Bool), field.length = 11 ∧
      bytes.length = n.toNat + 2 ∧ bits = field ++ (n :: bytes).flatMap wireByte ++ rest) ∨
    judgeBits bits = .damaged ∧ ∀ b more, judgeBits (bits ++ b :: more) = .undecided := by
  have hlong : ¬ bits.length < 11 := fun hshort => h (if_pos hshort)
  have hnext (b : Bool) (more : List Bool) : ¬ (bits ++ b :: more).length < 11 := by simp; omega
  have hdrop (b : Bool) (more : List Bool) : (bits ++ b :: more).drop 11 = bits.drop 11 ++ b :: more :=
    List.drop_append_of_le_length (by omega)
  cases hlength : readBytes 1 (bits.drop 11) with
  | unread => simp [judgeBits, hlength] at h
  | broken =>
    refine .inr ⟨by simp [judgeBits, hlong, hlength], fun b more => ?_⟩
    rw [judgeBits, if_neg (hnext b more), hdrop, readBytes_broken_append hlength]
  | got length after =>
    obtain ⟨hone, hafter⟩ := readBytes_got hlength
    obtain ⟨n, rfl⟩ := List.length_eq_one_iff.mp hone
    cases hbytes : readBytes (n.toNat + 2) after with
    | unread => simp [judgeBits, hlength, hbytes] at h
    | broken =>
      refine .inr ⟨by simp [judgeBits, hlong, hlength, hbytes], fun b more => ?_⟩
      have hlength' := readBytes_wire [n] (after ++ b :: more)
      rw [← List.append_assoc, ← hafter, List.length_singleton] at hlength'
      rw [judgeBits, if_neg (hnext b more), hdrop, hlength']
      dsimp only
      rw [readBytes_broken_append hbytes]
    | got bytes rest =>
      obtain ⟨hcount, hrest⟩ := readBytes_got hbytes
      refine .inl ⟨bits.take 11, n, bytes, rest, by simp; omega, hcount, ?_⟩
      rw [List.flatMap_cons, List.append_assoc, List.append_assoc, ← hrest]
      rw [List.flatMap_singleton] at hafter
      rw [← hafter, List.take_append_drop]

theorem bytes16_injective : Function.Injective bytes16 := by
  intro a b h
  simp only [bytes16, List.cons.injEq, and_true] at h
  rw [← be16_bytes a, ← be16_bytes b, h.1, h.2]

/-- An intact frame is one put on the wire: the receiver takes no other bits for one (R99, R100). -/
theorem judgeBits_eq_intact_iff (bits : List Bool) (pr : BitVec 2) (sender : Station) (kind : BitVec 5) (data : List Byte) :
    judgeBits bits = .intact pr sender kind data ↔
      data.length ≤ 255 ∧ bits = fieldBits (arbitrationField pr sender kind) ++
        tailBits (arbitrationField pr sender kind) data := by
  constructor
  · intro h
    rcases judgeBits_decided (by rw [h]; simp) with ⟨field, n, bytes, rest, hf, hb, rfl⟩ | ⟨hd, -⟩
    · rw [judgeBits_packed hf n hb] at h
      split at h
      · next hcheck =>
        obtain ⟨rfl, hread⟩ := readEnd_eq_intact h
        obtain ⟨rfl, rfl⟩ := readFields_bits hf hread
        have hn : (bytes.take n.toNat).length = n.toNat := by simp; omega
        refine ⟨by have := n.isLt; omega, ?_⟩
        rw [tailBits, packedBits, checkSequence, hn, BitVec.ofNat_toNat, BitVec.setWidth_eq, ← hcheck,
          List.cons_append, List.take_append_drop, List.append_assoc]
        rfl
      · split at h <;> cases h
    · rw [hd] at h
      cases h
  · rintro ⟨hlength, rfl⟩
    exact judgeBits_wire pr sender kind data hlength

/-- A frame's bits up to its check sequence, whatever the sequence, and what follows them. -/
theorem judgeBits_checked (field : BitVec 11) {data : List Byte} (h : data.length ≤ 255) (check : BitVec 16)
    (rest : List Bool) :
    judgeBits (fieldBits field ++ (BitVec.ofNat 8 data.length :: data ++ bytes16 check).flatMap wireByte ++ rest) =
      if check = checkSequence field data then readEnd (readFields (fieldBits field) data) 7 rest
      else if rest.isEmpty then .damaged else .undecided := by
  have hn : (BitVec.ofNat 8 data.length).toNat = data.length := by rw [BitVec.toNat_ofNat]; omega
  rw [List.cons_append, judgeBits_packed (fieldBits_length field) _ (by simp [hn, bytes16]), hn, List.drop_left' rfl,
    List.take_left' rfl]
  exact if_congr bytes16_injective.eq_iff rfl rfl

/-- A recessive separator damages the frame at that bit (R99). -/
theorem judgeBits_separator (field : BitVec 11) {data : List Byte} (h : data.length ≤ 255) {k : Nat}
    (hk : k < data.length + 3) :
    judgeBits (fieldBits field ++ (packedBits field data).take (9 * k) ++ [true]) = .damaged := by
  have hn : (BitVec.ofNat 8 data.length).toNat = data.length := by rw [BitVec.toNat_ofNat]; omega
  rw [packedBits, take_wireBytes, List.append_assoc, judgeBits, if_neg (by simp), List.drop_left' (fieldBits_length field)]
  cases k with
  | zero => rfl
  | succ k =>
    have hlength := readBytes_wire [BitVec.ofNat 8 data.length]
      (((data ++ bytes16 (checkSequence field data)).take k).flatMap wireByte ++ [true])
    rw [List.length_singleton, List.flatMap_singleton, ← List.append_assoc, ← List.flatMap_cons] at hlength
    rw [List.cons_append, List.take_succ_cons, hlength]
    dsimp only
    rw [hn, readBytes_separator (by simp [bytes16]; omega)]

/-- Behind a judgement no bit is judged again. -/
theorem judgeBits_append {bits : List Bool} (h : judgeBits bits ≠ .undecided) (b : Bool) (more : List Bool) :
    judgeBits (bits ++ b :: more) = .undecided := by
  rcases judgeBits_decided h with ⟨field, n, bytes, rest, hf, hb, rfl⟩ | ⟨-, hnext⟩
  · rw [judgeBits_packed hf n hb] at h
    rw [List.append_assoc, judgeBits_packed hf n hb]
    split at h
    · next hcheck => rw [if_pos hcheck, readEnd_append h]
    · next hcheck => rw [if_neg hcheck]; simp
  · exact hnext b more

theorem wireFrame_length (field : BitVec 11) (data : List Byte) : (wireFrame field data).length = 9 * data.length + 46 := by
  simp only [wireFrame, tailBits, packedBits, endBits, List.length_append, List.length_cons, wireBytes_length,
    fieldBits_length, bytes16, List.length_nil, List.length_replicate]
  omega

/-- Settles O23. The arbitration number and the check register by arithmetic; the receiver by the form of the bits that are
judged at all. -/
theorem framesOnTheWire : Obligations.FramesOnTheWire := by
  refine ⟨fun pr sender kind data => ⟨arbitrationField_toNat pr sender kind, wireFrame_length _ data, ?_⟩,
    fun before after b => foldl_checkStep_wrongBit before after b _, fun field data => ⟨?_, rfl, rfl⟩,
    fun bits pr sender kind data => ?_, fun field data h => ⟨fun k hk => judgeBits_separator field h hk, ?_, fun m hm => ?_⟩,
    fun bits more b h => judgeBits_append h b more⟩
  · exact List.take_left' (by simp)
  · simp [wireFrame, tailBits, endBits]
  · rw [judgeBits_eq_intact_iff, wireFrame, List.cons_append, List.cons_inj_right]
  · intro check hcheck
    have hjudged := judgeBits_checked field h check []
    rwa [List.append_nil, if_neg hcheck] at hjudged
  · have hjudged := judgeBits_checked field h (checkSequence field data) (List.replicate m true ++ [false])
    rw [if_pos rfl, ← List.append_assoc] at hjudged
    exact hjudged.trans ((readEnd_eq_damaged_iff (by simp [readFields])).mpr ⟨m, hm, rfl⟩)

/-! ## The frame offered and its start (R101, R103, R108) -/

section
variable {q : List Entry}

/-- The place of the oldest entry of a class (R103). -/
def classPlace (q : List Entry) (c : BitVec 2) : Option Nat := q.findIdx? (fun e => kindClass e.payload.kind == c)

theorem classPlace_eq_some_iff {c : BitVec 2} {n : Nat} : classPlace q c = some n ↔
    ∃ e, q[n]? = some e ∧ kindClass e.payload.kind = c ∧
      ∀ m d, m < n → q[m]? = some d → kindClass d.payload.kind ≠ c := by
  simp only [classPlace, List.findIdx?_eq_some_iff_getElem, List.getElem?_eq_some_iff, beq_iff_eq]
  constructor
  · rintro ⟨hn, hclass, hfirst⟩
    exact ⟨q[n], ⟨hn, rfl⟩, hclass, fun m d hm ⟨_, hd⟩ => hd ▸ hfirst m hm⟩
  · rintro ⟨e, ⟨hn, rfl⟩, hclass, hfirst⟩
    exact ⟨hn, hclass, fun m hm => hfirst m _ hm ⟨by omega, rfl⟩⟩

theorem classPlace_eq_none_iff {c : BitVec 2} : classPlace q c = none ↔ ∀ d ∈ q, kindClass d.payload.kind ≠ c := by
  simp [classPlace, List.findIdx?_eq_none_iff]

/-- The entry offered is the oldest of its class, with every lower class empty (R103). -/
theorem offeredPlace_eq_some_iff_class {n : Nat} : offeredPlace q = some n ↔
    ∃ c, classPlace q c = some n ∧ ∀ lower, lower < c → classPlace q lower = none := by
  have hunfold : offeredPlace q =
      (classPlace q 0).or ((classPlace q 1).or ((classPlace q 2).or (classPlace q 3))) := rfl
  have hclasses : ∀ c : BitVec 2, c = 0 ∨ c = 1 ∨ c = 2 ∨ c = 3 := by decide
  have hbelow0 : ∀ c : BitVec 2, ¬ c < 0 := by decide
  have hbelow1 : ∀ c : BitVec 2, c < 1 → c = 0 := by decide
  have hbelow2 : ∀ c : BitVec 2, c < 2 → c = 0 ∨ c = 1 := by decide
  have hbelow3 : ∀ c : BitVec 2, c < 3 → c = 0 ∨ c = 1 ∨ c = 2 := by decide
  simp only [hunfold, Option.or_eq_some_iff]
  constructor
  · rintro (h | ⟨h0, h | ⟨h1, h | ⟨h2, h⟩⟩⟩)
    · exact ⟨0, h, fun lower hl => absurd hl (hbelow0 lower)⟩
    · refine ⟨1, h, fun lower hl => ?_⟩
      obtain rfl := hbelow1 lower hl
      exact h0
    · refine ⟨2, h, fun lower hl => ?_⟩
      rcases hbelow2 lower hl with rfl | rfl
      exacts [h0, h1]
    · refine ⟨3, h, fun lower hl => ?_⟩
      rcases hbelow3 lower hl with rfl | rfl | rfl
      exacts [h0, h1, h2]
  · rintro ⟨c, h, hlower⟩
    rcases hclasses c with rfl | rfl | rfl | rfl
    · exact .inl h
    · exact .inr ⟨hlower 0 (by decide), .inl h⟩
    · exact .inr ⟨hlower 0 (by decide), .inr ⟨hlower 1 (by decide), .inl h⟩⟩
    · exact .inr ⟨hlower 0 (by decide), .inr ⟨hlower 1 (by decide), .inr ⟨hlower 2 (by decide), h⟩⟩⟩

theorem offeredPlace_eq_some_iff {n : Nat} : offeredPlace q = some n ↔
    ∃ e, q[n]? = some e ∧ (∀ d ∈ q, (kindClass e.payload.kind).toNat ≤ (kindClass d.payload.kind).toNat) ∧
      ∀ m d, m < n → q[m]? = some d → kindClass d.payload.kind ≠ kindClass e.payload.kind := by
  rw [offeredPlace_eq_some_iff_class]
  constructor
  · rintro ⟨c, hplace, hlower⟩
    obtain ⟨e, he, rfl, hfirst⟩ := classPlace_eq_some_iff.mp hplace
    exact ⟨e, he, fun d hd => Nat.not_lt.mp fun hlt => classPlace_eq_none_iff.mp (hlower _ hlt) d hd rfl, hfirst⟩
  · rintro ⟨e, he, hlowest, hfirst⟩
    refine ⟨_, classPlace_eq_some_iff.mpr ⟨e, he, rfl, hfirst⟩, fun lower hl => classPlace_eq_none_iff.mpr ?_⟩
    rintro d hd rfl
    exact absurd hl (Nat.not_lt.mpr (hlowest d hd))

end

theorem mayStart_iff {s : State} : mayStart s = true ↔
    s.phase = .running ∧ s.slc.lineState = .idle ∧ s.slc.silent = none ∧ s.slc.role = .none := by
  simp [mayStart, and_assoc]

theorem exec_frameStart_starts {s : State} (h : mayStart s = true) {n : Nat} (hn : offeredPlace s.slc.queue = some n)
    (t : Nat) : exec (.frameStart t) s = .next (startFrame n (advance t s)) := by
  have hmay : mayStart (advance t s) = true := by simpa [mayStart] using h
  simp [exec, execFrameStart, hmay, hn]

theorem exec_frameStart_idle {s : State} (h : mayStart s = false ∨ offeredPlace s.slc.queue = none) (t : Nat) :
    exec (.frameStart t) s = .next (advance t s) := by
  have hmay : mayStart (advance t s) = mayStart s := by simp [mayStart]
  rcases h with h | h
  · simp [exec, execFrameStart, hmay, h]
  · simp [exec, execFrameStart, h]

/-- Settles O26. -/
theorem offeredFrameStarts : Obligations.OfferedFrameStarts := by
  refine ⟨fun q n => offeredPlace_eq_some_iff, fun s t hrun hrole => ⟨fun n hidle hsilent hn => ?_, fun hnot => ?_⟩⟩
  · rw [exec_frameStart_starts (mayStart_iff.mpr ⟨hrun, hidle, hsilent, hrole⟩) hn, advance_running _ _ hrun]
    rfl
  · rw [exec_frameStart_idle ?_, advance_running _ _ hrun]
    rcases hnot with hline | hsilent | hempty
    · exact .inl (Bool.eq_false_iff.mpr fun hmay => hline (mayStart_iff.mp hmay).2.1)
    · exact .inl (Bool.eq_false_iff.mpr fun hmay => hsilent (mayStart_iff.mp hmay).2.2.1)
    · exact .inr (by rw [hempty]; rfl)

/-! ## The queue takes a frame (R104, R175) -/

theorem queueTakes_iff {q : List Entry} {p : Payload} :
    queueTakes q p = true ↔ q.length < 32 ∧ (p.isLine = true → lineEntries q < 24) := by
  simp only [queueTakes, Bool.and_eq_true, Bool.or_eq_true, Bool.not_eq_true', decide_eq_true_eq]
  exact and_congr_right fun _ => by cases p.isLine <;> simp [Config.lineRoom]

section
variable {s : State}

theorem enqueue_taken {e : Entry} (h : queueTakes s.slc.queue e.payload = true) :
    enqueue e s = (setQueue (s.slc.queue ++ [e]) s, true) := if_pos h

theorem enqueue_refused {e : Entry} (h : queueTakes s.slc.queue e.payload = false) :
    enqueue e s = (bump 13 1 s, false) := if_neg (by simp [h])

end

/-! ## Requests of queued entries (R105) -/

section
variable {sel : Entry → Bool} {e : Entry}

theorem requestEntries_unselected (r : Request) (h : sel e = false) : requestEntries sel r [e] = [e] := by
  simp [requestEntries, h]

theorem requestEntries_onWire (r : Request) (h : sel e = true) (hw : e.onWire = true) :
    requestEntries sel r [e] = [{ e with waiting := e.waiting ++ [r] }] := by
  simp [requestEntries, h, Entry.take, hw]

theorem requestEntries_offWire (r : Request) (h : sel e = true) (hw : e.onWire = false) :
    requestEntries sel r [e] = (e.apply r).toList := by
  cases ha : e.apply r <;> simp [requestEntries, h, Entry.take, hw, ha]

end

/-! ## A key replaced in a payload (R89, R105, R164, R175) -/

section
variable (old new : Key) (p : Payload)

theorem replaceKey_kind : (p.replaceKey old new).kind = p.kind := by cases p <;> rfl

theorem replaceKey_chartKey : (p.replaceKey old new).chartKey = p.chartKey.map (swapKey old new) := by cases p <;> rfl

theorem replaceKey_length : p.bytes.length = (p.replaceKey old new).bytes.length := by
  cases p <;> simp [Payload.replaceKey, Payload.bytes, keyBytes]

/-- A chart key stands in the first two bytes; the others are not its own (R180). -/
theorem replaceKey_drop (k : Key) (h : p.chartKey = some k) : (p.replaceKey old new).bytes.drop 2 = p.bytes.drop 2 := by
  cases p with
  | openF | closeF | dropF | tallyF | wantF | claimF | lineF => rfl
  | _ => cases h

theorem replaceKey_keyless (h : p.kind ∈ [Kind.restartK, .askK, .rosterK, .reportK]) : p.replaceKey old new = p := by
  cases p with
  | restartF | askF | rosterF | reportF => rfl
  | _ => simp [Payload.kind] at h

end

/-- Settles O27. -/
theorem queueAndCounters : Obligations.QueueAndCounters := by
  refine ⟨⟨fun e s => ⟨fun h => enqueue_taken (queueTakes_iff.mpr h), fun h => enqueue_refused ?full⟩,
    fun es s => ⟨fun h => if_pos h, fun h => if_neg h⟩, fun n k detail s => rfl⟩,
    fun n k s => ⟨rfl, fun m => bump_getElem s n m k⟩,
    fun sel => ⟨fun r p q => List.filterMap_append, fun r e => requestEntries_unselected r,
      fun r e => requestEntries_onWire r, fun e h hw => requestEntries_offWire .remove h hw,
      fun old new e h hw => requestEntries_offWire (.replaceKey old new) h hw, ?withdrawn⟩,
    fun old new p => ⟨replaceKey_kind old new p, replaceKey_chartKey old new p, replaceKey_length old new p,
      ?note, ?descriptor, replaceKey_drop old new p, ?null, replaceKey_keyless old new p⟩⟩
  case full => exact Bool.eq_false_iff.mpr (mt queueTakes_iff.mp h)
  case withdrawn =>
    intro m e k base mask codes h hw hp
    rw [requestEntries_offWire _ h hw]
    simp only [Entry.apply, hp]
    split <;> rfl
  case note => rintro c tag k detail rfl; rfl
  case descriptor => rintro requester n d rfl; rfl
  case null => rintro requester n m rfl; rfl

/-! ## Line state and arbitration (R98, R101, R102, R105, R114) -/

/-- The recessive run reaches back to the last dominant bit (R98). -/
theorem recessiveAfter_dominant (bits : List Bool) (n : Nat) :
    recessiveAfter (bits ++ false :: List.replicate n true) = min 11 n := by
  simp [recessiveAfter, List.takeWhile_append_of_pos]

theorem recessiveAfter_recessive (n : Nat) : recessiveAfter (List.replicate n true) = min 11 n := by
  simp [recessiveAfter]

theorem recessiveAfter_lost (bits : List Bool) : recessiveAfter (bits ++ [false]) = 0 := recessiveAfter_dominant bits 0

section
variable {s : State} {t : Nat}

theorem exec_lineIdle_running (h : s.phase = .running) : exec (.lineIdle t) s =
    if s.slc.rx = none ∧ s.slc.role = .none ∧ s.slc.lineState ≠ .idle then
      .next { s with clock := max s.clock t, slc := { s.slc with lineState := .idle, recessiveRun := 11 } }
    else .next { s with clock := max s.clock t } := by
  simp only [exec, execLineIdle, advance_running _ _ h, h, true_and]
  split <;> rfl

theorem exec_lineBusy_running (h : s.phase = .running) : exec (.lineBusy t) s =
    if s.slc.rx ≠ none ∨ s.slc.lineState = .unsynced then
      .next { s with clock := max s.clock t, slc := { s.slc with recessiveRun := 0 } }
    else .next { s with
      clock := max s.clock t, slc := { s.slc with lineState := .busy, recessiveRun := 0, rx := some [] } } := by
  simp only [exec, execLineBusy, advance_running _ _ h, h, ne_eq, not_true_eq_false, if_false, Option.isSome_iff_ne_none]
  split <;> rfl

variable {e : Entry}

/-- The state at a loss of arbitration, before the builder hears of an entry that left (R101, R105). -/
def arbitrationGivenUp (e : Entry) (bit t : Nat) (s : State) : State :=
  { s with
    clock := max s.clock t
    slc := { s.slc with
      role := .none, sle := false, sltRecessive := true,
      rx := some ((fieldBits (entryArbitration s.ssv.own e)).take bit ++ [false]), recessiveRun := 0,
      queue := loseQueue s.slc.queue } }

theorem exec_arbitrationLost_driven (h : s.phase = .running) (hrole : s.slc.role = .contending)
    (he : wireEntry s.slc.queue = some e) {bit : Nat}
    (hbit : (fieldBits (entryArbitration s.ssv.own e))[bit]? = some true) :
    exec (.arbitrationLost t bit) s =
      .next (if (loseQueue s.slc.queue).length < s.slc.queue.length then tryBuild (arbitrationGivenUp e bit t s)
        else arbitrationGivenUp e bit t s) := by
  simp only [exec, execArbitrationLost, advance_running _ _ h, hrole, he, hbit, if_true, loseArbitration, stopDriving,
    recessiveAfter_lost, decide_eq_true_eq, arbitrationGivenUp, setSlc]

theorem length_loseQueue_le (q : List Entry) : (loseQueue q).length ≤ q.length := List.length_filterMap_le ..

/-- A frame on the wire that kept no request stays queued at its loss (R101, R105). -/
theorem length_loseQueue {q : List Entry} (h : ∀ d ∈ q, d.onWire = true → d.waiting = []) :
    (loseQueue q).length = q.length := by
  have hstays : loseQueue q = q.map (fun d => { d with onWire := false }) := by
    rw [loseQueue, ← List.filterMap_eq_map]
    refine List.filterMap_congr fun d hd => ?_
    cases hw : d.onWire with
    | true => simp [Entry.lose, h d hd hw, Entry.applyAll]
    | false => simp [← hw]
  rw [hstays, List.length_map]

theorem win_eq (clock : Nat) (d : Entry) : d.win clock =
    match d.onWire, d.payload with
    | true, .openF k tag rate _ =>
      { d with payload := .openF k tag rate (BitVec.ofNat 16 (min 65535 ((clock + 352) / 1000 - d.transition))) }
    | _, _ => d := by
  unfold Entry.win
  cases hw : d.onWire with
  | false => rfl
  | true => cases hp : d.payload <;> simp [openDelay, Config.openTailUs]

theorem exec_arbitrationWon_contending (h : s.phase = .running) (hrole : s.slc.role = .contending)
    (he : wireEntry s.slc.queue = some e) :
    let bits := fieldBits (entryArbitration s.ssv.own e)
    exec (.arbitrationWon t) s = .next { s with
      clock := max s.clock t
      slc := { s.slc with
        role := .sending, rx := some bits, recessiveRun := recessiveAfter bits, sltRecessive := bits.getLastD true,
        queue := s.slc.queue.map (Entry.win (max s.clock t)) } } := by
  simp only [exec, execArbitrationWon, advance_running _ _ h, hrole, he, setSlc]

end

/-- Settles O28. -/
theorem lineAndArbitration : Obligations.LineAndArbitration := by
  refine ⟨fun bits n => ⟨recessiveAfter_recessive n, recessiveAfter_dominant bits n⟩, fun s t h => ⟨?_, ?_, ?_, ?_⟩,
    ?lost, ?won⟩
  · exact fun hrx hrole hline => (exec_lineIdle_running h).trans (if_pos ⟨hrx, hrole, hline⟩)
  · refine fun hnot => (exec_lineIdle_running h).trans (if_neg ?_)
    rintro ⟨hrx, hrole, hline⟩
    rcases hnot with hn | hn | hn <;> contradiction
  · refine fun hrx hline => (exec_lineBusy_running h).trans (if_neg ?_)
    rintro (hn | hn) <;> contradiction
  · exact fun hread => (exec_lineBusy_running h).trans (if_pos hread)
  case lost =>
    intro s t bit e h hrole he hbit bits lost
    have hlost := exec_arbitrationLost_driven (t := t) h hrole he hbit
    have hstays : lost.slc.queue.length = s.slc.queue.length → exec (.arbitrationLost t bit) s = .next lost :=
      fun hlength => hlost.trans (congrArg _ (if_neg (Nat.not_lt.mpr hlength.ge)))
    refine ⟨fun hwaiting => ⟨hstays (length_loseQueue hwaiting), length_loseQueue hwaiting⟩, fun hless => ?_, hstays⟩
    exact hlost.trans (congrArg _ (if_pos hless))
  case won =>
    intro s t e h hrole he bits
    refine ⟨_, exec_arbitrationWon_contending h hrole he, rfl, rfl, ?_⟩
    exact List.map_congr_left fun d _ => win_eq _ d

/-! ## The end of a send (R99, R100, R102, R106) -/

theorem sized_length {p : Payload} (h : p.sized = true) : p.bytes.length ≤ 255 :=
  (lengthAllowed_le (readData_bytes h).2).trans (by decide)

section
variable {own : Receiver} {e : Entry} {role : TxRole}

/-- The bits driven, read back whole, are judged by the bits that follow them. -/
theorem judgeBits_echo (h : e.payload.sized = true) (ends : List Bool) :
    judgeBits (entryBits own e ++ ends) =
      readEnd (.intact (kindClass e.payload.kind) (stationOf own) (kindCode e.payload.kind) e.payload.bytes) 7 ends := by
  have hjudged := judgeBits_checked (entryArbitration own e) (sized_length h)
    (checkSequence (entryArbitration own e) e.payload.bytes)
  have hfields := (hjudged endBits).symm.trans (judgeBits_wire _ _ _ _ (sized_length h))
  rw [if_pos rfl] at hfields
  rw [entryBits, drivenBits, packedBits, hjudged, if_pos rfl, (readEnd_eq_intact hfields).2]

theorem outcomePossible_sent (h : e.payload.sized = true) :
    outcomePossible role (entryBits own e) .sent = true ↔ role = .sending := by
  have hintact : (judgeBits (entryBits own e ++ endBits)).isIntact = true := by rw [judgeBits_echo h]; rfl
  simp [outcomePossible, echoBits, hintact]

theorem outcomePossible_damagedEcho (h : e.payload.sized = true) (ends : List Bool) :
    outcomePossible role (entryBits own e) (.damagedEcho ends) = true ↔
      role = .sending ∧ ∃ m, m < 7 ∧ ends = List.replicate m true ++ [false] := by
  simp only [outcomePossible, echoBits, Bool.and_eq_true, beq_iff_eq, judgeBits_echo h]
  rw [readEnd_eq_damaged_iff (by simp)]

theorem outcomePossible_bitError (driven : List Bool) (b : Nat) : outcomePossible role driven (.bitError b) = true ↔
    (role = .contending ∧ b < 11 ∧ driven[b]? = some false) ∨ (role = .sending ∧ 11 ≤ b ∧ b < driven.length) := by
  cases role <;> simp [outcomePossible, errorPossible]

end

/-- The state at a completion when the entry has left, before the builder and the owner hear of it (R106). -/
def sendEnded (e : Entry) (outcome : SendOutcome) (s : State) : State :=
  let u := countCompletion outcome (lineAfterSend s.ssv.own e outcome s)
  setSlc { u.slc with
    role := .none, sle := false, sltRecessive := true,
    damageRun := if decide (outcome = .sent) then 0 else u.slc.damageRun + 1,
    queue := u.slc.queue.filter (fun d => !d.onWire) } u

section
variable {s : State} {e : Entry} {outcome : SendOutcome}

theorem exec_sendCompletion_possible (hrun : s.phase = .running) (he : wireEntry s.slc.queue = some e)
    (hpossible : outcomePossible s.slc.role (entryBits s.ssv.own e) outcome = true) (t : Nat) :
    exec (.sendCompletion t outcome) s = .next (completeSend e outcome { s with clock := max s.clock t }) := by
  simp only [exec, execSendCompletion, advance_running _ _ hrun, he, hpossible, if_true]

theorem completeSend_eq : completeSend e outcome s =
    let w := ownerCompletion e (sendEnded e outcome s).now (decide (outcome = .sent)) (tryBuild (sendEnded e outcome s))
    if 16 ≤ (sendEnded e outcome s).slc.damageRun then enterSilent w else w := by
  have hended : completeSend e outcome s =
      let w := ownerCompletion e (sendEnded e outcome s).now (decide (outcome = .sent)) (tryBuild (sendEnded e outcome s))
      if Config.damageLimit ≤ w.slc.damageRun then enterSilent w else w := rfl
  rw [hended]
  simp only [ownerCompletion_keeps, tryBuild_keeps]
  rfl

/-- What every outcome leaves of the send (R102, R106). -/
theorem sendEnded_frame (e : Entry) (outcome : SendOutcome) (s : State) :
    let v := sendEnded e outcome s
    v.slc.queue = s.slc.queue.filter (fun d => !d.onWire) ∧ v.slc.role = .none ∧ v.slc.sle = false ∧
    v.slc.sltRecessive = true ∧ v.slc.silent = s.slc.silent ∧ v.lcu = s.lcu ∧ v.lfr = s.lfr ∧ v.cst = s.cst ∧
    v.xen = s.xen ∧ v.ssv = { s.ssv with counters := v.ssv.counters } ∧ v.clock = s.clock ∧ v.phase = s.phase ∧
    v.pending = s.pending := by
  cases outcome <;> simp [sendEnded, countCompletion, lineAfterSend, frameEnded, stopDriving, bump]

theorem sendEnded_damageRun (e : Entry) (outcome : SendOutcome) (s : State) :
    (sendEnded e outcome s).slc.damageRun = if outcome = .sent then 0 else s.slc.damageRun + 1 := by
  cases outcome <;> rfl

theorem sendEnded_line_sent (e : Entry) (s : State) :
    let v := sendEnded e .sent s
    v.slc.lineState = .busy ∧ v.slc.rx = none ∧ v.slc.recessiveRun = recessiveAfter (entryBits s.ssv.own e ++ endBits) :=
  ⟨rfl, rfl, Nat.min_eq_right (recessiveAfter_le _)⟩

theorem sendEnded_line_bitError (e : Entry) (b : Nat) (s : State) :
    let v := sendEnded e (.bitError b) s
    let read := (entryBits s.ssv.own e).take b ++ [!((entryBits s.ssv.own e).getD b false)]
    v.slc.lineState = s.slc.lineState ∧ v.slc.rx = some read ∧ v.slc.recessiveRun = recessiveAfter read :=
  ⟨rfl, rfl, rfl⟩

theorem sendEnded_line_damagedEcho (e : Entry) (ends : List Bool) (s : State) :
    let v := sendEnded e (.damagedEcho ends) s
    v.slc.lineState = .busy ∧ v.slc.rx = none ∧ v.slc.recessiveRun = recessiveAfter (entryBits s.ssv.own e ++ ends) :=
  ⟨rfl, rfl, Nat.min_eq_right (recessiveAfter_le _)⟩

theorem sendEnded_counters_sent (e : Entry) (s : State) (m : Fin 16) : (sendEnded e .sent s).ssv.counters[m] =
    if m = 6 then min 65535 (s.ssv.counters[m] + 1) else s.ssv.counters[m] := bump_getElem s 6 m 1

theorem sendEnded_counters_bitError (e : Entry) (b : Nat) (s : State) (m : Fin 16) :
    (sendEnded e (.bitError b) s).ssv.counters[m] =
      if m = 7 then min 65535 (s.ssv.counters[m] + 1) else s.ssv.counters[m] := bump_getElem s 7 m 1

/-- A damaged echo is counted as a damaged frame too (R106, R109). -/
theorem sendEnded_counters_damagedEcho (e : Entry) (ends : List Bool) (s : State) (m : Fin 16) :
    (sendEnded e (.damagedEcho ends) s).ssv.counters[m] =
      if m = 5 ∨ m = 7 then min 65535 (s.ssv.counters[m] + 1) else s.ssv.counters[m] := by
  refine (bump_getElem (bump 7 1 s) 5 m 1).trans ?_
  rw [bump_getElem]
  by_cases h5 : m = 5
  · simp [h5]
  · simp [h5]

theorem ownerCompletion_unowned {e : Entry}
    (h : e.payload.kind ∈ [Kind.closeK, .tallyK, .wantK, .rosterK, .describeK, .noteK, .reportK]) (stamp : Nat)
    (sent : Bool) (s : State) : ownerCompletion e stamp sent s = s := by
  unfold ownerCompletion
  split
  case h_4 => rfl
  all_goals
    next hp =>
      rw [hp] at h
      simp [Payload.kind] at h

end

/-- Settles O29. The outcomes by the receiver's judgement of the echo, the completion by what `sendEnded` leaves. -/
theorem sendCompletes : Obligations.SendCompletes := by
  refine ⟨fun own e role h => ⟨outcomePossible_sent h, outcomePossible_damagedEcho h, outcomePossible_bitError _⟩, ?_,
    fun e stamp sent s h => ownerCompletion_unowned h stamp sent s⟩
  intro s t outcome e hrun he hpossible hfew
  have hrun15 : ¬ 16 ≤ (sendEnded e outcome { s with clock := max s.clock t }).slc.damageRun := by
    rw [sendEnded_damageRun]
    split
    · decide
    · next hsent => have := hfew hsent; dsimp only; omega
  refine ⟨sendEnded e outcome { s with clock := max s.clock t }, ?_, ?_⟩
  · rw [exec_sendCompletion_possible hrun he hpossible, completeSend_eq, if_neg hrun15]
    obtain ⟨-, -, -, -, -, -, -, -, -, -, hclock, -, -⟩ := sendEnded_frame e outcome { s with clock := max s.clock t }
    simp only [State.now, hclock, stampAt]
  · obtain ⟨hqueue, hrole, hsle, hslt, hsilent, hlcu, hlfr, hcst, hxen, hssv, hclock, hphase, hpending⟩ :=
      sendEnded_frame e outcome { s with clock := max s.clock t }
    refine ⟨hqueue, hrole, hsle, hslt, hsilent, hlcu, hlfr, hcst, hxen, hssv, hclock, hphase, hpending, ?_, ?_, ?_⟩
    · rintro rfl
      obtain ⟨hline, hrx, hrecessive⟩ := sendEnded_line_sent e { s with clock := max s.clock t }
      exact ⟨rfl, hline, hrx, hrecessive, sendEnded_counters_sent e _⟩
    · rintro b rfl
      obtain ⟨hline, hrx, hrecessive⟩ := sendEnded_line_bitError e b { s with clock := max s.clock t }
      exact ⟨rfl, hline, hrx, hrecessive, sendEnded_counters_bitError e b _⟩
    · rintro ends rfl
      obtain ⟨hline, hrx, hrecessive⟩ := sendEnded_line_damagedEcho e ends { s with clock := max s.clock t }
      exact ⟨rfl, hline, hrx, hrecessive, sendEnded_counters_damagedEcho e ends _⟩

/-! ## Silent mode (R106 to R108, R149) -/

section
variable {s : State}

/-- Abandoning lines one by one takes all their ACTIVE entries and build lines (R149). -/
theorem foldl_abandonLine (gone : List (Key × Nat)) (s : State) :
    gone.foldl (fun s l => abandonLine l s) s = { s with xen := { s.xen with
      claims := s.xen.claims.filter (fun c => !gone.any (fun l => c.isActiveOf l.1 l.2))
      build := s.xen.build.filter (fun b => !gone.any (fun l => b.key == l.1 && b.index == l.2)) } } := by
  induction gone generalizing s with
  | nil => simp
  | cons l rest ih =>
    rw [List.foldl_cons, ih]
    simp only [abandonLine, dropBuildLine, dropClaims, setBuild, setClaims, List.filter_filter, List.any_cons,
      Bool.not_or, Bool.and_comm]

/-- Whether a line has a fragment queued. -/
def hasFragment (q : List Entry) (k : Key) (j : Nat) : Bool :=
  q.any (fun d => match d.payload with | .lineF k' i .. => k' == k && i.toNat == j | _ => false)

theorem any_fragmentLines (q : List Entry) (k : Key) (j : Nat) :
    (fragmentLines q).any (fun l => k == l.1 && j == l.2) = hasFragment q k j := by
  rw [fragmentLines, List.any_filterMap, hasFragment]
  congr 1
  funext d
  cases d.payload with
  | lineF k' i => exact congrArg₂ and BEq.comm BEq.comm
  | _ => rfl

theorem length_fragmentLines (q : List Entry) : (fragmentLines q).length = q.countP (fun d => d.payload.isLine) := by
  rw [fragmentLines, List.length_filterMap_eq_countP]
  congr 1
  funext d
  cases d.payload <;> rfl

/-- Silent mode begins: fragments, claims and build lines of the lines queued go, and NOTE class 12 tells of it (R107, R149). -/
theorem enterSilent_eq (s : State) : enterSilent s =
    raiseNote 12 none (BitVec.ofNat 16 (s.slc.queue.countP (fun d => d.payload.isLine))) { s with
      slc := { s.slc with
        silent := some (s.now + 10000), damageRun := 0, queue := s.slc.queue.filter (fun d => !d.payload.isLine) }
      xen := { s.xen with
        claims := s.xen.claims.filter (fun c => !(c.state == .active && hasFragment s.slc.queue c.key c.index))
        build := s.xen.build.filter (fun l => !hasFragment s.slc.queue l.key l.index) } } := by
  have hclaims (c : Claim) : (fragmentLines s.slc.queue).any (fun l => c.isActiveOf l.1 l.2) =
      (c.state == .active && hasFragment s.slc.queue c.key c.index) := by
    rw [← any_fragmentLines]
    cases hc : c.state == .active <;> simp [Claim.isActiveOf, hc]
  have hbuild (b : BuildLine) : (fragmentLines s.slc.queue).any (fun l => b.key == l.1 && b.index == l.2) =
      hasFragment s.slc.queue b.key b.index := any_fragmentLines ..
  simp only [enterSilent, foldl_abandonLine, length_fragmentLines, hclaims, hbuild, Config.silentMs]

theorem exec_silentEnd_due {t e : Nat} (hrun : s.phase = .running) (hsilent : s.slc.silent = some e) (he : e ≤ stampAt t s) :
    exec (.silentEnd t) s = .next (tryBuild (raiseNote 13 none 0
      { s with clock := max s.clock t, slc := { s.slc with silent := none } })) := by
  simp only [exec, execSilentEnd, advance_running _ _ hrun, reached_advanced hrun hsilent he, if_true, setSlc]

end

/-- Settles O31. The completion as in O29, with the sixteenth DAMAGED at its end. -/
theorem silentModeEntersAndEnds : Obligations.SilentModeEntersAndEnds := by
  refine ⟨?_, fun s t e => exec_silentEnd_due⟩
  intro s t outcome e hrun he hpossible hsent hfifteen
  have hdamage : (sendEnded e outcome { s with clock := max s.clock t }).slc.damageRun = 16 := by
    rw [sendEnded_damageRun, if_neg hsent, hfifteen]
  obtain ⟨hqueue, hrole, hsle, hslt, hsilent, hlcu, hlfr, hcst, hxen, hssv, hclock, hphase, hpending⟩ :=
    sendEnded_frame e outcome { s with clock := max s.clock t }
  refine ⟨sendEnded e outcome { s with clock := max s.clock t }, hqueue, hrole, hsle, hslt, hdamage, hsilent, hlcu, hlfr,
    hcst, hxen, hssv, hclock, hphase, hpending, ?_, ?_, ?_, ?_, ?_, ?_⟩
  · rintro b rfl
    exact sendEnded_line_bitError e b { s with clock := max s.clock t }
  · rintro ends rfl
    exact sendEnded_line_damagedEcho e ends { s with clock := max s.clock t }
  · intro m h5
    cases outcome with
    | sent => exact absurd rfl hsent
    | bitError b => exact sendEnded_counters_bitError e b _ m
    | damagedEcho ends => simpa [h5] using sendEnded_counters_damagedEcho e ends { s with clock := max s.clock t } m
  · rintro b rfl
    exact sendEnded_counters_bitError e b _ 5
  · rintro ends rfl
    exact sendEnded_counters_damagedEcho e ends _ 5
  · intro w abandoned
    have hnow : (sendEnded e outcome { s with clock := max s.clock t }).now = stampAt t s := by
      rw [State.now, hclock, stampAt]
    have hwnow : w.now = stampAt t s := by
      rw [← hnow]; simp [w, State.now]
    rw [exec_sendCompletion_possible hrun he hpossible, completeSend_eq, if_pos hdamage.ge, hnow, decide_eq_false hsent]
    change Host.Outcome.next (enterSilent w) = _
    rw [enterSilent_eq, hwnow]
    rfl

/-! ## Frames that are not dispatched (R98, R100, R109 to R112) -/

section
variable {s : State}

theorem hearsFrame_iff : hearsFrame s = true ↔
    s.phase = .running ∧ s.slc.lineState ≠ .unsynced ∧ s.slc.role = .none := by
  simp [hearsFrame, readsLine, and_assoc]

/-- The line behind a frame whose bits have been read (R98). -/
def lineRead (t : Nat) (bits : List Bool) (s : State) : State :=
  { s with clock := max s.clock t, slc := { s.slc with
    lineState := .busy, rx := none, recessiveRun := recessiveAfter bits } }

/-- A frame that is heard, and is of the sort its command names, is taken behind the line's own mark (R109). -/
theorem frameEvent_taken {named : Fate → Bool} {t : Nat} {bits : List Bool} {f : Fate} (h : hearsFrame s = true)
    (hf : fateOf s.ssv.own bits = some f) (hnamed : named f = true) :
    frameEvent named t bits s = takeFate f (lineRead t bits s) := by
  rw [frameEvent_heard _ _ _ _ _ h hf, if_pos hnamed, advance_running _ _ (hearsFrame_iff.mp h).1, frameEnded,
    Nat.min_eq_right (recessiveAfter_le _)]
  rfl

theorem fateOf_eq_damaged_iff {own : Receiver} {bits : List Bool} :
    fateOf own bits = some .damaged ↔ judgeBits bits = .damaged := by
  unfold fateOf
  cases judgeBits bits with
  | undecided => simp
  | damaged => simp
  | intact pr sender kind data =>
    simp only [intactFate, reduceCtorEq, iff_false, Option.some.injEq]
    split
    · simp
    · split
      · split <;> simp
      · simp

theorem fateOf_wire (own : Receiver) (pr : BitVec 2) (sender : Station) (kind : BitVec 5) {data : List Byte}
    (h : data.length ≤ 255) :
    fateOf own (fieldBits (arbitrationField pr sender kind) ++ tailBits (arbitrationField pr sender kind) data) =
      some (intactFate own pr sender kind data) := by
  rw [fateOf, judgeBits_wire _ _ _ _ h]

theorem intactFate_own (own : Receiver) (pr : BitVec 2) (kind : BitVec 5) (data : List Byte) :
    intactFate own pr (stationOf own) kind data = .clash pr kind := if_pos rfl

theorem intactFate_unfit {own : Receiver} {pr : BitVec 2} {sender : Station} {kind : BitVec 5} {data : List Byte}
    (hs : sender ≠ stationOf own) (h : frameFits pr kind data.length = false) :
    intactFate own pr sender kind data = .malformed sender := by
  simp [intactFate, hs, h]

/-- A frame event has no effect while the part does not run (R115, R168, R169). -/
theorem frameEvent_stopped (named : Fate → Bool) (t : Nat) (bits : List Bool) (h : s.phase ≠ .running) :
    frameEvent named t bits s = s := by
  rw [frameEvent_unheard _ _ _ _ (Bool.eq_false_iff.mpr fun hh => h (hearsFrame_iff.mp hh).1), advance_stopped _ _ h]

theorem frameEvent_unread (named : Fate → Bool) (t : Nat) (bits : List Bool) (hrun : s.phase = .running)
    (h : s.slc.lineState = .unsynced ∨ s.slc.role ≠ .none) :
    frameEvent named t bits s = { s with clock := max s.clock t } := by
  rw [frameEvent_unheard _ _ _ _ (Bool.eq_false_iff.mpr fun hh => ?_), advance_running _ _ hrun]
  obtain ⟨-, hline, hrole⟩ := hearsFrame_iff.mp hh
  exact h.elim hline (· hrole)

theorem frameEvent_otherFate {named : Fate → Bool} {t : Nat} {bits : List Bool} (hrun : s.phase = .running)
    (h : ∀ f, fateOf s.ssv.own bits = some f → named f = false) :
    frameEvent named t bits s = { s with clock := max s.clock t } := by
  rw [frameEvent_unnamed _ _ _ _ h, advance_running _ _ hrun]

theorem exec_frameDamaged_unread {t : Nat} {bits : List Bool} (hrun : s.phase = .running)
    (h : s.slc.lineState = .unsynced ∨ s.slc.role ≠ .none ∨ judgeBits bits ≠ .damaged) :
    exec (.frameDamaged t bits) s = .next { s with clock := max s.clock t } := by
  refine congrArg Host.Outcome.next ?_
  rcases h with h | h | h
  · exact frameEvent_unread _ t bits hrun (.inl h)
  · exact frameEvent_unread _ t bits hrun (.inr h)
  · refine frameEvent_otherFate hrun fun f hf => beq_eq_false_iff_ne.mpr ?_
    rintro rfl
    exact h (fateOf_eq_damaged_iff.mp hf)

/-- A malformed frame is counted, and marks its sender present (R110, R111, R121, R156). -/
theorem takeMalformed_lineRead {t : Nat} {bits : List Bool} (sender : Station) :
    takeMalformed sender (lineRead t bits s) = bump 5 1 (markPresent sender (stampAt t s) (lineRead t bits s)) := rfl

theorem exec_heardCommand_own {t : Nat} {p : Payload} (hrun : s.phase = .running) (h : p.sized = true) :
    exec (heardCommand t (stationOf s.ssv.own) p) s = .next { s with clock := max s.clock t } := by
  have hcommand (sender : Station) :
      exec (heardCommand t sender p) s = .next (hearFrame t p.kind sender (frameTail sender p) s) := by cases p <;> rfl
  rw [hcommand, hearFrame]
  refine congrArg _ (frameEvent_otherFate hrun fun f hf => ?_)
  have hclash := fateOf_wire s.ssv.own (kindClass p.kind) (stationOf s.ssv.own) (kindCode p.kind) (sized_length h)
  rw [intactFate_own] at hclash
  cases hf.symm.trans hclash
  rfl

end

/-- Settles O33. Every command of a frame is a frame event, which the fate of its bits and the line decide. -/
theorem framesNotDispatched : Obligations.FramesNotDispatched := by
  refine ⟨fun s t bits hrun => ⟨fun hline hrole hdamaged => ?_, exec_frameDamaged_unread hrun⟩, ?malformed,
    fun s t hrun hline hrole => ⟨fun pr kind data hlength => ?_, fun p hp => exec_heardCommand_own hrun hp⟩, ?unread⟩
  · exact congrArg _ (frameEvent_taken (hearsFrame_iff.mpr ⟨hrun, hline, hrole⟩) (fateOf_eq_damaged_iff.mpr hdamaged) rfl)
  case malformed =>
    intro s t pr sender kind data ⟨hrun, hline, hrole, hsender⟩ hfits hlength field
    have hfate := fateOf_wire s.ssv.own pr sender kind hlength
    rw [intactFate_unfit hsender hfits] at hfate
    have htaken := frameEvent_taken (named := Fate.isMalformed) (t := t) (hearsFrame_iff.mpr ⟨hrun, hline, hrole⟩) hfate rfl
    refine ⟨_, congrArg Host.Outcome.next htaken, ?_⟩
    rw [takeFate, takeMalformed_lineRead]
    refine ⟨?_, ?_, ?_, ?_, ?_, ?_, ?cst, ?_, ?ssv, fun i => recordAt_markPresent _ i⟩
    case cst => apply cst_with_slots <;> simp [lineRead]
    case ssv => simp only [bump, ssv_markPresent]; rfl
    all_goals simp [lineRead, field]
  · have hfate := fateOf_wire s.ssv.own pr (stationOf s.ssv.own) kind hlength
    rw [intactFate_own] at hfate
    exact congrArg _ (frameEvent_taken (hearsFrame_iff.mpr ⟨hrun, hline, hrole⟩) hfate rfl)
  case unread =>
    intro s t pr sender kind bits heard malformed clash moved
    have hevents : ∀ c ∈ [.frameDamaged t bits, malformed, clash] ++ heard.map (·.1),
        ∃ named bits', exec c s = .next (frameEvent named t bits' s) :=
      List.forall_iff_forall_mem.mp ⟨⟨_, _, rfl⟩, ⟨_, _, rfl⟩, ⟨_, _, rfl⟩, ⟨_, _, rfl⟩, ⟨_, _, rfl⟩, ⟨_, _, rfl⟩,
        ⟨_, _, rfl⟩, ⟨_, _, rfl⟩, ⟨_, _, rfl⟩, ⟨_, _, rfl⟩, ⟨_, _, rfl⟩, ⟨_, _, rfl⟩, ⟨_, _, rfl⟩, ⟨_, _, rfl⟩,
        ⟨_, _, rfl⟩, ⟨_, _, rfl⟩⟩
    have hheard : ∀ x ∈ heard,
        exec x.1 s = .next (frameEvent (Fate.isHeard x.2) t (fieldBits (kindField x.2 sender) ++ bits) s) :=
      List.forall_iff_forall_mem.mp ⟨rfl, rfl, rfl, rfl, rfl, rfl, rfl, rfl, rfl, rfl, rfl, rfl, rfl⟩
    refine ⟨fun c hc => ?_, fun hrun => ⟨fun x hx hother => ?_, fun hother => ?_, fun hother => ?_⟩⟩
    · obtain ⟨named, bits', hc⟩ := hevents c hc
      rw [hc]
      exact ⟨fun h => congrArg _ (frameEvent_stopped _ _ _ h), fun hrun h => congrArg _ (frameEvent_unread _ _ _ hrun h)⟩
    · exact (hheard x hx).trans (congrArg _ (frameEvent_otherFate hrun hother))
    · exact congrArg _ (frameEvent_otherFate hrun hother)
    · exact congrArg _ (frameEvent_otherFate hrun hother)

/-! ## Timers before their time (R115, R168, R169) -/

section
variable {s : State} {t : Nat}

/-- A time that a running part has not reached at an event is not due, and in reset and boot none is (R168, R169). -/
theorem isDue_waits {due : Nat} (h : s.phase = .running → stampAt t s < due) : isDue due (advance t s) = false := by
  refine Bool.eq_false_iff.mpr fun hdue => ?_
  simp only [isDue, advance_phase, Bool.and_eq_true, beq_iff_eq, decide_eq_true_eq] at hdue
  obtain ⟨hrun, hle⟩ := hdue
  rw [State.now, advance_clock _ _ hrun] at hle
  exact Nat.not_lt.mpr hle (h hrun)

theorem reached_waits {due : Option Nat} (h : s.phase = .running → ∀ e, due = some e → stampAt t s < e) :
    reached due (advance t s) = false := by
  cases due with
  | none => rfl
  | some e => exact isDue_waits fun hrun => h hrun e rfl

theorem exec_gainDownEnd_waits (h : s.phase = .running → ∀ e, s.lcu.gainDownEnd = some e → stampAt t s < e) :
    exec (.gainDownEnd t) s = .next (advance t s) := by
  simp [exec, execGainDownEnd, reached_waits h]

theorem exec_phasingTimeout_waits
    (h : s.phase = .running → ∀ p, s.lfr.state = .phasing → s.lfr.phasingSince = some p → stampAt t s < p + 20000) :
    exec (.phasingTimeout t) s = .next (advance t s) := by
  have hover : phasingOver (advance t s) = false := by
    rw [phasingOver, advance_lfr, Bool.and_eq_false_imp, beq_iff_eq]
    refine fun hphasing => reached_waits fun hrun e he => ?_
    obtain ⟨p, hp, rfl⟩ := Option.map_eq_some_iff.mp he
    exact h hrun p hphasing hp
  simp [exec, execPhasingTimeout, hover]

theorem exec_silentEnd_waits (h : s.phase = .running → ∀ e, s.slc.silent = some e → stampAt t s < e) :
    exec (.silentEnd t) s = .next (advance t s) := by
  simp [exec, execSilentEnd, reached_waits h]

theorem exec_tallyExpiry_waits (h : s.phase = .running → stampAt t s < s.xen.tallyDue) :
    exec (.tallyExpiry t) s = .next (advance t s) := by
  simp [exec, execTallyExpiry, isDue_waits h]

theorem exec_rosterExpiry_waits (h : s.phase = .running → stampAt t s < s.ssv.rosterDue) :
    exec (.rosterExpiry t) s = .next (advance t s) := by
  simp [exec, execRosterExpiry, isDue_waits h]

theorem exec_minuteExpiry_waits (h : s.phase = .running → stampAt t s < s.ssv.minuteDue) :
    exec (.minuteExpiry t) s = .next (advance t s) := by
  simp [exec, execMinuteExpiry, isDue_waits h]

/-- Station time's moving on leaves the slots. -/
theorem recordAt_advance (i : SlotNo) : recordAt (advance t s) i = recordAt s i := recordAt_congr (by simp) i

theorem exec_wantTimerExpiry_waits {i : SlotNo}
    (h : s.phase = .running → ∀ c d, recordAt s i = some c → c.wantDue = some d → stampAt t s < d) :
    exec (.wantTimerExpiry t i) s = .next (advance t s) := by
  simp only [exec, execWantTimerExpiry, recordAt_advance]
  split
  · next due hdue =>
    obtain ⟨c, hc, hd⟩ := Option.bind_eq_some_iff.mp hdue
    rw [isDue_waits fun hrun => h hrun c due hc hd]
    rfl
  · rfl

theorem exec_sweepDeadline_waits {i : SlotNo} (h : s.phase = .running → ∀ c d, recordAt s i = some c → c.state = .sweep →
    c.sweepDeadline = some d → stampAt t s < d) : exec (.sweepDeadline t i) s = .next (advance t s) := by
  simp only [exec, execSweepDeadline, recordAt_advance]
  split
  · next c hc =>
    refine congrArg _ (if_neg ?_)
    rintro ⟨hsweep, hover⟩
    rw [reached_waits fun hrun d hd => h hrun c d hc hsweep hd] at hover
    cases hover
  · rfl

theorem exec_silenceClose_waits {i : SlotNo} (h : s.phase = .running → ∀ c, recordAt s i = some c → c.state = .live →
    c.bound = false → stampAt t s < c.lastReference + 120000) : exec (.silenceClose t i) s = .next (advance t s) := by
  simp only [exec, execSilenceClose, recordAt_advance]
  split
  · next c hc =>
    refine congrArg _ (if_neg fun hover => ?_)
    simp only [silenceOver, Bool.and_eq_true, beq_iff_eq, Bool.not_eq_true'] at hover
    obtain ⟨⟨hlive, hbound⟩, hdue⟩ := hover
    rw [Config.silenceMs, isDue_waits fun hrun => h hrun c hc hlive hbound] at hdue
    cases hdue
  · rfl

theorem exec_peerAbsent_waits {st : Station}
    (h : s.phase = .running → ∀ p, s.ssv.peers[st] = some p → stampAt t s < p.lastHeard + 150000) :
    exec (.peerAbsent t st) s = .next (advance t s) := by
  simp only [exec, execPeerAbsent, advance_ssv]
  split
  · next p hp =>
    rw [Config.absentMs, isDue_waits fun hrun => h hrun p hp]
    rfl
  · rfl

theorem exec_claimLapse_waits {k : Key} {j : Nat} (h : s.phase = .running → ∀ c ∈ s.xen.claims, c.state = .active →
    c.key = k → c.index = j → ∀ e, c.expiry = some e → stampAt t s < e) :
    exec (.claimLapse t k j) s = .next (advance t s) := by
  simp only [exec, execClaimLapse, advance_xen]
  split
  · next c hc =>
    have hactive : c.isActiveOf k j = true := List.find?_some hc
    simp only [Claim.isActiveOf, Bool.and_eq_true, beq_iff_eq] at hactive
    obtain ⟨⟨hstate, hkey⟩, hindex⟩ := hactive
    rw [reached_waits fun hrun => h hrun c (List.mem_of_find?_eq_some hc) hstate hkey hindex]
    rfl
  · rfl

theorem exec_heardLapse_waits {k : Key} {j : Nat} {r : Receiver} (h : s.phase = .running → ∀ c ∈ s.xen.claims,
    c.state = .heard → c.key = k → c.index = j → c.claimant = r → ∀ e, c.expiry = some e → stampAt t s < e) :
    exec (.heardLapse t k j r) s = .next (advance t s) := by
  simp only [exec, execHeardLapse, advance_xen]
  split
  · next c hc =>
    have hheard : c.isHeardOf k j r = true := List.find?_some hc
    simp only [Claim.isHeardOf, Bool.and_eq_true, beq_iff_eq] at hheard
    obtain ⟨⟨⟨hstate, hkey⟩, hindex⟩, hclaimant⟩ := hheard
    rw [reached_waits fun hrun => h hrun c (List.mem_of_find?_eq_some hc) hstate hkey hindex hclaimant]
    rfl
  · rfl

theorem exec_reassemblyTimeout_waits {r : Receiver} {k : Key} {j : Nat} (h : s.phase = .running → ∀ a ∈ s.xen.assemblies,
    a.sender = r → a.key = k → a.index = j → stampAt t s < a.start + 2000) :
    exec (.reassemblyTimeout t r k j) s = .next (advance t s) := by
  simp only [exec, execReassemblyTimeout, advance_xen]
  split
  · next a ha =>
    have hof : a.isOf r k j = true := List.find?_some ha
    simp only [Assembly.isOf, Bool.and_eq_true, beq_iff_eq] at hof
    obtain ⟨⟨hsender, hkey⟩, hindex⟩ := hof
    rw [Config.assemblyMs, isDue_waits fun hrun => h hrun a (List.mem_of_find?_eq_some ha) hsender hkey hindex]
    rfl
  · rfl

/-! ## The share line in reset and boot (R115, R169) -/

theorem exec_lineIdle_stopped (h : s.phase ≠ .running) : exec (.lineIdle t) s = .next s := by
  simp [exec, execLineIdle, advance_stopped _ _ h, h]

theorem exec_lineBusy_stopped (h : s.phase ≠ .running) : exec (.lineBusy t) s = .next s := by
  simp [exec, execLineBusy, advance_stopped _ _ h, h]

theorem exec_frameStart_stopped (h : s.phase ≠ .running) : exec (.frameStart t) s = .next s := by
  have hmay : mayStart s = false := Bool.eq_false_iff.mpr fun hmay => h (mayStart_iff.mp hmay).1
  rw [exec_frameStart_idle (.inl hmay), advance_stopped _ _ h]

/-- No outcome can come of a send that is not there (R106). -/
theorem outcomePossible_none (driven : List Bool) (outcome : SendOutcome) :
    outcomePossible .none driven outcome = false := by
  cases outcome <;> rfl

theorem exec_arbitrationLost_idle (h : s.slc.role ≠ .contending) (bit : Nat) :
    exec (.arbitrationLost t bit) s = .next (advance t s) := by
  simp only [exec, execArbitrationLost, advance_slc]
  split
  · next hrole _ => exact absurd hrole h
  · rfl

theorem exec_arbitrationWon_idle (h : s.slc.role ≠ .contending) : exec (.arbitrationWon t) s = .next (advance t s) := by
  simp only [exec, execArbitrationWon, advance_slc]
  split
  · next hrole _ => exact absurd hrole h
  · rfl

theorem exec_sendCompletion_idle (h : s.slc.role = .none) (outcome : SendOutcome) :
    exec (.sendCompletion t outcome) s = .next (advance t s) := by
  simp only [exec, execSendCompletion, advance_slc, h, outcomePossible_none]
  split <;> rfl

end

/-- Settles O46. Each command waits for its time; in reset and boot that time never comes. -/
theorem timersWaitForTheirTime : Obligations.TimersWaitForTheirTime := by
  constructor
  · intro s t hrun moved
    have hmoved : Host.Outcome.next (advance t s) = moved := congrArg _ (advance_running _ _ hrun)
    rw [← hmoved]
    exact ⟨fun h => exec_gainDownEnd_waits fun _ => h, fun h => exec_phasingTimeout_waits fun _ => h,
      fun h => exec_silentEnd_waits fun _ => h, fun h => exec_tallyExpiry_waits fun _ => h,
      fun h => exec_rosterExpiry_waits fun _ => h, fun h => exec_minuteExpiry_waits fun _ => h,
      fun _ h => exec_wantTimerExpiry_waits fun _ => h, fun _ h => exec_sweepDeadline_waits fun _ => h,
      fun _ h => exec_silenceClose_waits fun _ => h, fun _ h => exec_peerAbsent_waits fun _ => h,
      fun _ _ h => exec_claimLapse_waits fun _ => h, fun _ _ _ h => exec_heardLapse_waits fun _ => h,
      fun _ _ _ h => exec_reassemblyTimeout_waits fun _ => h⟩
  · intro s t j bit i st k r outcome h
    have hstill : advance t s = s := advance_stopped _ _ h
    have hstays {c : Instr} (hc : exec c s = .next (advance t s)) : exec c s = .next s := hc.trans (congrArg _ hstill)
    refine ⟨List.forall_iff_forall_mem.mp ⟨hstays (exec_gainDownEnd_waits (absurd · h)),
      hstays (exec_phasingTimeout_waits (absurd · h)), hstays (exec_silentEnd_waits (absurd · h)),
      hstays (exec_tallyExpiry_waits (absurd · h)), hstays (exec_rosterExpiry_waits (absurd · h)),
      hstays (exec_minuteExpiry_waits (absurd · h)), hstays (exec_wantTimerExpiry_waits (absurd · h)),
      hstays (exec_sweepDeadline_waits (absurd · h)), hstays (exec_silenceClose_waits (absurd · h)),
      hstays (exec_peerAbsent_waits (absurd · h)), hstays (exec_claimLapse_waits (absurd · h)),
      hstays (exec_heardLapse_waits (absurd · h)), hstays (exec_reassemblyTimeout_waits (absurd · h)),
      exec_lineIdle_stopped h, exec_lineBusy_stopped h, exec_frameStart_stopped h⟩, fun hrole => ?_⟩
    have hcontending : s.slc.role ≠ .contending := by rw [hrole]; decide
    exact List.forall_iff_forall_mem.mp ⟨hstays (exec_arbitrationLost_idle hcontending bit),
      hstays (exec_arbitrationWon_idle hcontending), hstays (exec_sendCompletion_idle hrole outcome)⟩

/-! ## Lapses and absence (R121, R147, R148, R152, R158) -/

section
variable {s : State} {t : Nat}

theorem isDue_advanced {due : Nat} (h : s.phase = .running) (hd : due ≤ stampAt t s) :
    isDue due { s with clock := max s.clock t } = true :=
  reached_advanced (due := some due) h rfl hd

theorem exec_claimLapse_due {j e : Nat} {k : Key} {d : Claim} (hrun : s.phase = .running)
    (hfind : s.xen.claims.find? (Claim.isActiveOf k j) = some d) (hexpiry : d.expiry = some e) (he : e ≤ stampAt t s) :
    exec (.claimLapse t k j) s = .next (lapseOwn k j { s with clock := max s.clock t }) := by
  simp only [exec, execClaimLapse, advance_running _ _ hrun, hfind, reached_advanced hrun hexpiry he, if_true]

theorem exec_heardLapse_due {j e : Nat} {k : Key} {r : Receiver} {d : Claim} (hrun : s.phase = .running)
    (hfind : s.xen.claims.find? (Claim.isHeardOf k j r) = some d) (hexpiry : d.expiry = some e) (he : e ≤ stampAt t s) :
    exec (.heardLapse t k j r) s =
      .next (bump 10 1 (dropClaims (Claim.isHeardOf k j r) { s with clock := max s.clock t })) := by
  simp only [exec, execHeardLapse, advance_running _ _ hrun, hfind, reached_advanced hrun hexpiry he, if_true]

theorem exec_reassemblyTimeout_due {j : Nat} {r : Receiver} {k : Key} {a : Assembly} (hrun : s.phase = .running)
    (hfind : s.xen.assemblies.find? (·.isOf r k j) = some a) (hold : a.start + 2000 ≤ stampAt t s) :
    exec (.reassemblyTimeout t r k j) s = .next (countDiscard (dropAssembly r k j { s with clock := max s.clock t })) := by
  simp only [exec, execReassemblyTimeout, advance_running _ _ hrun, hfind, Config.assemblyMs, isDue_advanced hrun hold, if_true]

theorem exec_peerAbsent_due {st : Station} {p : Peer} (hrun : s.phase = .running) (hp : s.ssv.peers[st] = some p)
    (hold : p.lastHeard + 150000 ≤ stampAt t s) :
    exec (.peerAbsent t st) s = .next (declareAbsent st { s with clock := max s.clock t }) := by
  simp only [exec, execPeerAbsent, advance_running _ _ hrun, hp, Config.absentMs, isDue_advanced hrun hold, if_true]

theorem stationOf_receiverOf {st : Station} {r : Receiver} (h : receiverOf st = some r) : stationOf r = st := by
  unfold receiverOf at h
  split at h
  · cases h; rfl
  · cases h

/-- The views when a station has gone: a receiver's column is empty in each, a viewer has none (R121). -/
def viewsWithout (st : Station) (views : Vector PeerView 4) : Vector PeerView 4 :=
  match receiverOf st with
  | some r => views.map (fun v => v.set r [])
  | none => views

theorem viewsWithout_getElem (st : Station) (views : Vector PeerView 4) (i : SlotNo) (r : Receiver) :
    ((viewsWithout st views)[i])[r] = if stationOf r = st then [] else (views[i])[r] := by
  unfold viewsWithout
  cases hst : receiverOf st with
  | none =>
    have hne : stationOf r ≠ st := by
      rintro rfl
      rw [receiverOf_stationOf] at hst
      cases hst
    rw [if_neg hne]
  | some q =>
    obtain rfl := stationOf_receiverOf hst
    by_cases hq : r = q
    · subst hq; simp
    · have hne : stationOf r ≠ stationOf q := fun heq => hq (Option.some.inj
        ((receiverOf_stationOf r).symm.trans ((congrArg receiverOf heq).trans (receiverOf_stationOf q))))
      have hval : q.val ≠ r.val := fun h => hq (Fin.ext h.symm)
      simp [hne, hval]

theorem declareAbsent_eq (st : Station) (s : State) : declareAbsent st s =
    raiseNote 14 none (BitVec.ofNat 16 st.val) { s with
      xen := { s.xen with views := viewsWithout st s.xen.views }
      ssv := { s.ssv with peers := s.ssv.peers.set st none } } := by
  unfold declareAbsent viewsWithout
  cases receiverOf st <;> rfl

end

/-- Settles O51. -/
theorem entriesLapse : Obligations.EntriesLapse := by
  refine ⟨fun s t j e k d hrun hfind hexpiry he => exec_claimLapse_due hrun hfind hexpiry he,
    fun s t j e k r d hrun hfind hexpiry he => exec_heardLapse_due hrun hfind hexpiry he,
    fun s t j r k a hrun hfind hold => exec_reassemblyTimeout_due hrun hfind hold,
    fun s t st p hrun hp hold => ⟨viewsWithout st s.xen.views, ?_, viewsWithout_getElem st s.xen.views⟩⟩
  rw [exec_peerAbsent_due hrun hp hold, declareAbsent_eq]

/-! ## A tally expiry (R104, R122, R123) -/

theorem getLsbD_clearDirty (flags : BitVec 64) (block : Nat) {b : Nat} (hb : b < 64) :
    (clearDirty flags block).getLsbD b = (flags.getLsbD b && !decide (b = block)) := by
  simp [clearDirty, hb, eq_comm]

theorem getLsbD_foldl_clearDirty (sent : List Nat) (flags : BitVec 64) {b : Nat} (hb : b < 64) :
    (sent.foldl clearDirty flags).getLsbD b = (flags.getLsbD b && !sent.contains b) := by
  induction sent generalizing flags with
  | nil => simp
  | cons block rest ih =>
    rw [List.foldl_cons, ih, getLsbD_clearDirty _ _ hb, List.contains_cons, Bool.not_or, Bool.and_assoc]
    rfl

theorem setChart_recordAt {i : SlotNo} {s : State} {c : Option Chart} (h : recordAt s i = c) : setChart i c s = s := by
  subst h
  simp only [setChart, recordAt, Fin.getElem_fin, Vector.set_getElem_self]

/-- The TALLY of a block, as the XEN queues it (R123). -/
def tallyEntry (c : Chart) (b : Nat) : Entry :=
  newEntry (.tallyF c.key (BitVec.ofNat 16 (32 * b)) (blockCodes c (32 * b))) .xen

/-- A slot with the TALLYs of these blocks queued and their flags cleared (R123). -/
def talliesQueued (i : SlotNo) (c : Chart) (sent : List Nat) (s : State) : State :=
  setChart i (some { c with dirty := sent.foldl clearDirty c.dirty })
    (setQueue (s.slc.queue ++ sent.map (tallyEntry c)) s)

/-- A slot served: of the blocks due those the queue has room for, with the first refusal counted (R104, R123). -/
def slotServed (i : SlotNo) (c : Chart) (due : List Nat) (s : State) : State :=
  let sent := due.take (32 - s.slc.queue.length)
  if sent.length < due.length then bump 13 1 (talliesQueued i c sent s) else talliesQueued i c sent s

section
variable {i : SlotNo} {s : State} {c : Chart}

theorem talliesQueued_nil (hc : recordAt s i = some c) : talliesQueued i c [] s = s := by
  have hqueue : setQueue (s.slc.queue ++ [].map (tallyEntry c)) s = s := by simp [setQueue]
  rw [talliesQueued, hqueue]
  exact setChart_recordAt hc

/-- A TALLY taken is the first of those that the slot queues. -/
theorem talliesQueued_cons (b : Nat) (sent : List Nat) :
    talliesQueued i { c with dirty := clearDirty c.dirty b } sent
      (setChart i (some { c with dirty := clearDirty c.dirty b }) (setQueue (s.slc.queue ++ [tallyEntry c b]) s)) =
    talliesQueued i c (b :: sent) s := by
  have hbehind : s.slc.queue ++ [tallyEntry c b] ++ sent.map (tallyEntry c) =
      s.slc.queue ++ (b :: sent).map (tallyEntry c) := by simp
  simp only [talliesQueued, setChart_slc, setQueue_queue, List.foldl_cons, ← hbehind]
  exact setChart_setChart (s := setQueue (s.slc.queue ++ [tallyEntry c b] ++ sent.map (tallyEntry c)) s) ..

theorem queueTallies_taken (hc : recordAt s i = some c) (frames b : Nat) (rest : List Nat)
    (h : queueTakes s.slc.queue (tallyEntry c b).payload = true) :
    queueTallies i (frames + 1) (b :: rest) s = queueTallies i frames rest
      (setChart i (some { c with dirty := clearDirty c.dirty b }) (setQueue (s.slc.queue ++ [tallyEntry c b]) s)) := by
  have htaken := enqueue_taken (s := s) (e := tallyEntry c b) h
  have hqueued : recordAt (setQueue (s.slc.queue ++ [tallyEntry c b]) s) i = some c := hc
  unfold tallyEntry at htaken hqueued ⊢
  simp only [queueTallies, hc, htaken, if_true, updateChart_eq hqueued]

theorem queueTallies_refused (hc : recordAt s i = some c) (frames b : Nat) (rest : List Nat)
    (h : queueTakes s.slc.queue (tallyEntry c b).payload = false) :
    queueTallies i (frames + 1) (b :: rest) s = bump 13 1 s := by
  have hrefused := enqueue_refused (s := s) (e := tallyEntry c b) h
  unfold tallyEntry at hrefused
  simp only [queueTallies, hc, hrefused, Bool.false_eq_true, if_false]

theorem tallyEntry_taken_iff (b : Nat) :
    queueTakes s.slc.queue (tallyEntry c b).payload = true ↔ s.slc.queue.length < 32 :=
  queueTakes_iff.trans (and_iff_left_of_imp fun _ hline => by cases hline)

/-- A slot's TALLYs are queued block by block for as long as the queue takes them. -/
theorem queueTallies_eq (frames : Nat) (blocks : List Nat) (hc : recordAt s i = some c) :
    queueTallies i frames blocks s = slotServed i c (blocks.take frames) s := by
  induction blocks generalizing frames s c with
  | nil =>
    have hnone : queueTallies i frames [] s = s := by cases frames <;> rfl
    rw [hnone, slotServed, List.take_nil, List.take_nil, if_neg (Nat.lt_irrefl _), talliesQueued_nil hc]
  | cons b rest ih =>
    cases frames with
    | zero => rw [List.take_zero, slotServed, List.take_nil, if_neg (Nat.lt_irrefl _), talliesQueued_nil hc]; rfl
    | succ frames =>
      rw [List.take_succ_cons, slotServed]
      cases htakes : queueTakes s.slc.queue (tallyEntry c b).payload with
      | true =>
        have hroom := (tallyEntry_taken_iff b).mp htakes
        obtain ⟨room, hrest⟩ : ∃ room, 32 - s.slc.queue.length = room + 1 := ⟨31 - s.slc.queue.length, by omega⟩
        rw [queueTallies_taken hc _ _ _ htakes, ih frames (recordAt_setChart_same ..)]
        have hless : 32 - (s.slc.queue ++ [tallyEntry c b]).length = room := by simp; omega
        simp only [slotServed, setChart_slc, setQueue_queue, hless, hrest, List.take_succ_cons, List.length_cons,
          Nat.add_lt_add_iff_right, talliesQueued_cons]
      | false =>
        have hfull : 32 - s.slc.queue.length = 0 := by
          have := mt (tallyEntry_taken_iff b).mpr (Bool.eq_false_iff.mp htakes)
          omega
        rw [queueTallies_refused hc _ _ _ htakes, hfull, List.take_zero, if_pos (by simp), talliesQueued_nil hc]

/-! ### The slot chosen (R122) -/

theorem visitOrder_eq : ∀ p : SlotNo, visitOrder p = (List.range 4).map (fun n => p + BitVec.toFin (BitVec.ofNat 2 n)) := by
  decide

theorem hasDirty_eq_false_iff : hasDirty s i = false ↔ ∀ c, recordAt s i = some c → c.dirty = 0 := by
  unfold hasDirty
  cases recordAt s i <;> simp

theorem hasDirty_of_dirty (hc : recordAt s i = some c) (h : c.dirty ≠ 0) : hasDirty s i = true := by
  simpa [hasDirty, hc] using h

theorem tallyRound_idle (h : ∀ i c, recordAt s i = some c → c.dirty = 0) : tallyRound s = s := by
  have hnone : (visitOrder s.xen.tallyPtr).find? (hasDirty s) = none :=
    List.find?_eq_none.mpr fun i _ => by rw [hasDirty_eq_false_iff.mpr (h i)]; decide
  simp only [tallyRound, hnone]

theorem tallyRound_serves {n : Nat} (hn : n < 4) (hi : i = s.xen.tallyPtr + BitVec.toFin (BitVec.ofNat 2 n))
    (hc : recordAt s i = some c) (hdirty : c.dirty ≠ 0)
    (hfirst : ∀ m d, m < n → recordAt s (s.xen.tallyPtr + BitVec.toFin (BitVec.ofNat 2 m)) = some d → d.dirty = 0) :
    tallyRound s = slotServed i c ((dirtyBlocks c.dirty).take 4) { s with xen := { s.xen with tallyPtr := i + 1 } } := by
  have hfound : (visitOrder s.xen.tallyPtr).find? (hasDirty s) = some i := by
    rw [visitOrder_eq, List.find?_map, Option.map_eq_some_iff]
    refine ⟨n, List.find?_range_eq_some.mpr ⟨?_, List.mem_range.mpr hn, fun m hm => ?_⟩, hi.symm⟩
    · subst hi; exact hasDirty_of_dirty hc hdirty
    · simp only [Function.comp_apply, hasDirty_eq_false_iff.mpr fun d => hfirst m d hm, Bool.not_false]
  have hmoved : recordAt { s with xen := { s.xen with tallyPtr := i + 1 } } i = some c := hc
  simp only [tallyRound, hfound, hmoved]
  exact queueTallies_eq 4 _ hmoved

theorem exec_tallyExpiry_due {t : Nat} (hrun : s.phase = .running) (hdue : s.xen.tallyDue ≤ stampAt t s) :
    exec (.tallyExpiry t) s = .next (tallyRound { s with
      clock := max s.clock t, xen := { s.xen with tallyDue := s.xen.tallyDue + 2000 } }) := by
  simp only [exec, execTallyExpiry, advance_running _ _ hrun, isDue_advanced hrun hdue, if_true, Config.tallyMs]

/-! ### What the slot's service moves -/

/-- Beside the slot, the queue and counter 13 it moves nothing. -/
theorem slotServed_frame (due : List Nat) :
    let u := slotServed i c due s
    u.xen = s.xen ∧ u.slc = { s.slc with queue := u.slc.queue } ∧ u.lcu = s.lcu ∧ u.lfr = s.lfr ∧
    u.cst = { s.cst with slots := u.cst.slots } ∧ u.clock = s.clock := by
  simp only [slotServed]
  split <;> exact ⟨rfl, rfl, rfl, rfl, rfl, rfl⟩

theorem slotServed_queue (due : List Nat) : (slotServed i c due s).slc.queue =
    s.slc.queue ++ (due.take (32 - s.slc.queue.length)).map (tallyEntry c) := by
  simp only [slotServed]
  split <;> rfl

theorem slotServed_ssv (due : List Nat) : (slotServed i c due s).ssv =
    (if (due.take (32 - s.slc.queue.length)).length < due.length then bump 13 1 s else s).ssv := by
  simp only [slotServed]
  split <;> rfl

theorem recordAt_slotServed (due : List Nat) (j : SlotNo) : recordAt (slotServed i c due s) j =
    if i = j then some { c with dirty := (due.take (32 - s.slc.queue.length)).foldl clearDirty c.dirty }
    else recordAt s j := by
  have hslots : recordAt (slotServed i c due s) j =
      recordAt (talliesQueued i c (due.take (32 - s.slc.queue.length)) s) j := by
    refine recordAt_congr ?_ j
    simp only [slotServed]
    split <;> rfl
  rw [hslots, talliesQueued, recordAt_setChart]
  rfl

end

/-- Settles O47. The slot chosen is the first in the order of the visits, and `slotServed` says what becomes of it. -/
theorem tallyExpiryServesOneSlot : Obligations.TallyExpiryServesOneSlot := by
  intro s t hrun hdue ticked
  constructor
  · exact fun hclean => (exec_tallyExpiry_due hrun hdue).trans (congrArg _ (tallyRound_idle hclean))
  · intro n i c hn hi hc hdirty hfirst blocks sent
    refine ⟨_, (exec_tallyExpiry_due hrun hdue).trans (congrArg _ (tallyRound_serves hn hi hc hdirty hfirst)),
      slotServed_queue blocks, ⟨_, (recordAt_slotServed blocks i).trans (if_pos rfl), rfl, fun b hb => ?flags⟩,
      fun j hj => (recordAt_slotServed blocks j).trans (if_neg (Ne.symm hj)), ?ssv, ?_⟩
    case flags => exact getLsbD_foldl_clearDirty sent c.dirty hb
    case ssv =>
      refine (slotServed_ssv blocks).trans ?_
      split <;> rfl
    obtain ⟨hxen, hslc, hlcu, hlfr, hcst, hclock⟩ := slotServed_frame (i := i) (c := c)
      (s := { ticked with xen := { ticked.xen with tallyPtr := i + 1 } }) blocks
    exact ⟨hxen, hslc, hlcu, hlfr, hcst, hclock⟩

/-! ## The frame on the wire (R101, R105, R115) -/

/-- How many queued entries are the frame on the wire. -/
def onWireIn (q : List Entry) : Nat := q.countP (·.onWire)

theorem onWireIn_append (a b : List Entry) : onWireIn (a ++ b) = onWireIn a + onWireIn b := List.countP_append

theorem onWireIn_eq_zero {q : List Entry} (h : ∀ e ∈ q, e.onWire = false) : onWireIn q = 0 :=
  List.countP_eq_zero.mpr fun e he => by simp [h e he]

theorem apply_onWire {r : Request} {e e' : Entry} (h : e.apply r = some e') : e'.onWire = e.onWire := by
  cases r with
  | remove => cases h
  | replaceKey old new => cases h; rfl
  | withdrawLines m =>
    unfold Entry.apply at h
    dsimp only at h
    split at h
    · split at h
      · cases h
      · cases h; rfl
    · cases h; rfl

theorem applyAll_onWire {rs : List Request} {e e' : Entry} (h : Entry.applyAll rs e = some e') : e'.onWire = e.onWire := by
  induction rs generalizing e with
  | nil => cases h; rfl
  | cons r rest ih =>
    unfold Entry.applyAll at h
    split at h
    · cases h
    · next ha => exact (ih h).trans (apply_onWire ha)

/-- A request leaves the frame on the wire there, and puts none there (R105). -/
theorem onWireIn_requestEntries (sel : Entry → Bool) (r : Request) (q : List Entry) :
    onWireIn (requestEntries sel r q) = onWireIn q := by
  have hone (e : Entry) : onWireIn (requestEntries sel r [e]) = onWireIn [e] := by
    cases hsel : sel e with
    | false => rw [requestEntries_unselected r hsel]
    | true =>
      cases hw : e.onWire with
      | true => rw [requestEntries_onWire r hsel hw]; simp [onWireIn, hw]
      | false =>
        rw [requestEntries_offWire r hsel hw]
        cases ha : e.apply r with
        | none => simp [onWireIn, hw]
        | some e' => simp [onWireIn, hw, apply_onWire ha]
  induction q with
  | nil => rfl
  | cons e rest ih =>
    have hsplit : requestEntries sel r (e :: rest) = requestEntries sel r [e] ++ requestEntries sel r rest :=
      List.filterMap_append (l := [e]) (l' := rest)
    rw [hsplit, onWireIn_append, hone, ih, ← onWireIn_append]
    rfl

theorem onWireIn_loseQueue (q : List Entry) : onWireIn (loseQueue q) = 0 := by
  refine onWireIn_eq_zero fun e' he' => ?_
  obtain ⟨e, -, he⟩ := List.mem_filterMap.mp he'
  split at he
  · exact applyAll_onWire he
  · next hoff => cases he; exact Bool.eq_false_iff.mpr hoff

theorem onWireIn_win (clock : Nat) (q : List Entry) : onWireIn (q.map (Entry.win clock)) = onWireIn q := by
  have hwin (e : Entry) : (e.win clock).onWire = e.onWire := by
    unfold Entry.win
    split
    · split <;> rfl
    · rfl
  simp only [onWireIn, List.countP_map, Function.comp_def, hwin]

/-- The entry started is the one frame on the wire (R101). -/
theorem onWireIn_start {q : List Entry} (h : onWireIn q = 0) {n : Nat} (hn : n < q.length) :
    onWireIn (q.modify n (fun e => { e with onWire := true })) = 1 := by
  induction q generalizing n with
  | nil => cases hn
  | cons e rest ih =>
    obtain ⟨he, hrest⟩ : e.onWire = false ∧ onWireIn rest = 0 := by
      simpa [onWireIn, List.countP_cons, Nat.add_eq_zero_iff, and_comm] using h
    cases n with
    | zero => simpa [onWireIn] using hrest
    | succ n =>
      have := ih hrest (Nat.lt_of_succ_lt_succ hn)
      simpa [onWireIn, List.countP_cons, he] using this

/-! ## Acts that leave the wire -/

/-- The queue that has come of `o`'s in `s` has as many frames on the wire. -/
def WireKept (o s : State) : Prop := onWireIn s.slc.queue = onWireIn o.slc.queue

section
variable {o s u : State}

theorem WireKept.refl (s : State) : WireKept s s := rfl

theorem WireKept.trans (h : WireKept o s) (h' : WireKept s u) : WireKept o u := Eq.trans h' h

theorem WireKept.aside (h : WireKept o s) (hqueue : u.slc.queue = s.slc.queue := by rfl) : WireKept o u :=
  h.trans (congrArg onWireIn hqueue)

/-- Frames queued by an act that spares the transfers are not on the wire. -/
theorem Spares.wireKept (h : Spares o s) : WireKept o s := by
  obtain ⟨new, hqueue, hplain⟩ := h.queue
  rw [WireKept, hqueue, onWireIn_append, onWireIn_eq_zero fun e he => (hplain e he).wire, Nat.add_zero]

theorem WireKept.spared (h : WireKept o s) (hu : Spares s u) : WireKept o u := h.trans hu.wireKept

theorem WireKept.ite {p : Prop} [Decidable p] {a b : State} (ha : WireKept o a) (hb : WireKept o b) :
    WireKept o (if p then a else b) := by
  split
  · exact ha
  · exact hb

theorem WireKept.request (h : WireKept o s) (sel : Entry → Bool) (r : Request)
    (hqueue : u.slc.queue = requestEntries sel r s.slc.queue := by rfl) : WireKept o u :=
  h.trans (by rw [WireKept, hqueue, onWireIn_requestEntries])

theorem WireKept.enqueueGroup (h : WireKept o s) (ps : List Payload) (owner : Block) :
    WireKept o (enqueueGroup (ps.map (fun p => newEntry p owner)) s).1 := by
  unfold Machine.enqueueGroup
  split
  · refine h.trans ?_
    rw [WireKept, setQueue_queue, onWireIn_append, onWireIn_eq_zero (List.forall_mem_map.mpr fun _ _ => rfl), Nat.add_zero]
  · exact h

theorem WireKept.buildLines (l : List BuildLine) {s : State} (h : WireKept o s) : WireKept o (buildLines l s) := by
  induction l generalizing s with
  | nil => exact h.aside
  | cons b rest ih =>
    unfold Machine.buildLines
    split
    · exact ih h
    · exact .ite (ih (h.enqueueGroup _ _)) h.aside

theorem WireKept.tryBuild (h : WireKept o s) : WireKept o (tryBuild s) := h.buildLines _

theorem WireKept.retryBuild (h : WireKept o s) (before : State) : WireKept o (retryBuild before s) := .ite h.tryBuild h

theorem WireKept.withdrawEntries (h : WireKept o s) (sel : Entry → Bool) (r : Request) :
    WireKept o (withdrawEntries sel r s) := (h.request sel r).retryBuild s

/-! ### The chart store and the level port -/

theorem WireKept.freeSlot (h : WireKept o s) (i : SlotNo) : WireKept o (freeSlot i s) := by
  cases hc : recordAt s i with
  | none => simpa only [Machine.freeSlot, hc] using h
  | some c =>
    rw [freeSlot_eq hc]
    exact (h.request (leavesWithSlot i c) .remove).retryBuild s

theorem WireKept.secondChance (n : Nat) {s : State} (h : WireKept o s) : WireKept o (secondChance n s).1 := by
  induction n generalizing s with
  | zero => exact h
  | succ n ih =>
    rcases secondChance_visit n s with hv | ⟨c, hc, hv⟩ | ⟨c, hc, hv⟩ <;> rw [hv]
    · exact ih h.aside
    · exact ih h.aside
    · exact (h.aside.freeSlot _).spared ((Spares.refl _).raiseNote _ _ _)

theorem WireKept.findSlot (h : WireKept o s) : WireKept o (findSlot s).1 := by
  unfold Machine.findSlot
  split
  · exact h
  · exact h.secondChance 5

theorem WireKept.requestSlot (h : WireKept o s) (r : Rate) (t : Nat) : WireKept o (requestSlot r t s).1 := by
  unfold Machine.requestSlot
  split
  · exact h.spared ((Spares.refl s).bindSlot _ _ _)
  · dsimp only
    split
    · exact h.findSlot.spared (((Spares.refl _).raiseNote _ _ _).bump 13 1)
    · exact h.findSlot.aside.spared ((Spares.refl _).queueOpen _ _)

theorem WireKept.enterImage (h : WireKept o s) (r : Rate) : WireKept o (enterImage r s) := by
  cases hlast : s.lfr.pulses.getLast? with
  | none => simpa only [Machine.enterImage, hlast] using h
  | some last =>
    rw [enterImage_eq hlast]
    have hanswered : WireKept o (entryAnswer r last s).1 :=
      WireKept.requestSlot (s := setLfr (enteredFramer last s.now s.lfr) s) h.aside r s.now
    exact hanswered.spared (Spares.foldl (fun w _ hu => hu.imageWord w) _ ((Spares.refl _).setLfr _))

theorem WireKept.framerWord (h : WireKept o s) (w : HeardWord) : WireKept o (framerWord w s) := by
  have hdetected : WireKept o (setLfr (detectPulse w s.now s.lfr) s) := h.aside
  unfold Machine.framerWord
  dsimp only
  split
  · exact hdetected.spared ((Spares.refl _).imageWord w)
  · unfold decideMiss takeMiss
    split
    · split
      · exact .ite hdetected.aside (.ite (hdetected.enterImage _) hdetected.aside)
      · exact hdetected
    · exact hdetected

theorem WireKept.takeWord (h : WireKept o s) (bits : BitVec 16) : WireKept o (takeWord bits s) := by
  have hheard := WireKept.framerWord (s := setLcu (lcuWord (handOff bits s.lcu) s.lcu) s) h.aside (handOff bits s.lcu)
  rcases Nat.lt_or_ge (s.lcu.windowCount + 1) 1200 with hc | hc
  · rwa [takeWord_inside hc]
  · rw [takeWord_closing hc]
    exact hheard.spared ((Spares.refl _).closeWindow _)

/-! ### Heard frames -/

theorem WireKept.withdrawOpen (h : WireKept o s) (i : SlotNo) (offset tPeer : Int) (heard : Key) :
    WireKept o (withdrawOpen i offset tPeer heard s) := by
  unfold Machine.withdrawOpen
  split
  · exact h
  · next c _ =>
    have hwithdrawn := h.withdrawEntries (Entry.isOpenOf i c.key) .remove
    refine WireKept.spared ?_ ((Spares.refl _).raiseNote _ _ _)
    refine WireKept.request (s := updateChart i _ (setOpenReq i .nothing _)) ?_ (fun _ => true) (.replaceKey c.key heard)
    exact hwithdrawn.aside (by simp)

theorem WireKept.judgeOpen (h : WireKept o s) (sender : Station) (stamp : Nat) (k : Key) (tag rate : Byte)
    (delay : BitVec 16) : WireKept o (judgeOpen sender stamp k tag rate delay s) := by
  unfold Machine.judgeOpen
  split
  · exact h.aside
  · refine .ite h.aside (.ite h ?_)
    unfold takeOpen
    split
    · exact h.withdrawOpen _ _ _ _
    · split
      · exact h.spared ((Spares.refl s).recordAlias _ _)
      · unfold adoptChart
        dsimp only
        split
        · exact h.findSlot.spared (((Spares.refl _).raiseNote _ _ _).bump 13 1)
        · exact h.findSlot.aside

theorem WireKept.judgeDrop (h : WireKept o s) (k : Key) : WireKept o (judgeDrop k s) := by
  unfold Machine.judgeDrop
  split
  · exact h
  · split
    · exact h
    · exact .ite ((h.freeSlot _).spared ((Spares.refl _).raiseNote _ _ _)) h

theorem WireKept.bump (h : WireKept o s) (n : Fin 16) (k : Nat) : WireKept o (bump n k s) := h.aside

theorem WireKept.setClaims (h : WireKept o s) (cs : List Claim) : WireKept o (setClaims cs s) := h.aside

theorem WireKept.claimPut (h : WireKept o s) (k : Key) (base : BitVec 16) (mask : BitVec 32) (codes : List (BitVec 4)) :
    WireKept o (enqueue (newEntry (.claimF k base mask codes) .xen) s).1 :=
  h.spared ((Spares.refl s).enqueue (newEntry_plain rfl .xen))

theorem WireKept.answerWant (h : WireKept o s) (i : SlotNo) (base : Nat) (mask : BitVec 32) (codes : List (BitVec 4)) :
    WireKept o (answerWant i base mask codes s) := by
  unfold Machine.answerWant
  split
  · exact h
  · exact .ite (h.bump 13 _) (.ite (((h.bump 13 _).claimPut _ _ _ _).setClaims _) ((h.bump 13 _).claimPut _ _ _ _))

theorem WireKept.judgeWant (h : WireKept o s) (k : Key) (base : BitVec 16) (mask : BitVec 32) (codes : List (BitVec 4))
    (stations : BitVec 16) : WireKept o (judgeWant k base mask codes stations s) := by
  unfold Machine.judgeWant
  refine .ite h.aside ?_
  split
  · exact h
  · exact .ite (WireKept.answerWant (h.aside (by simp)) _ _ _ _) h

theorem WireKept.yieldPending (h : WireKept o s) (key : Key) (base place code : Nat) :
    WireKept o (yieldPending key base place code s) := by
  unfold Machine.yieldPending
  split
  · exact h
  · exact .ite h ((WireKept.withdrawEntries (h.setClaims _) _ _).bump 9 1)

theorem WireKept.recordHeard (h : WireKept o s) (key : Key) (index : Nat) (r : Receiver) (stamp : Nat) :
    WireKept o (recordHeard key index r stamp s) := .ite h.aside h.aside

theorem WireKept.takeClaimLines (i : SlotNo) (key : Key) (r : Receiver) (base stamp : Nat) (codes : List (BitVec 4))
    (places : List Nat) {s : State} (h : WireKept o s) : WireKept o (takeClaimLines i key r base stamp codes places s) := by
  induction places generalizing s with
  | nil => exact h
  | cons p rest ih => exact ih ((h.yieldPending _ _ _ _).recordHeard _ _ _ _).aside

theorem WireKept.judgeClaim (h : WireKept o s) (sender : Station) (stamp : Nat) (k : Key) (base : BitVec 16)
    (mask : BitVec 32) (codes : List (BitVec 4)) : WireKept o (judgeClaim sender stamp k base mask codes s) := by
  unfold Machine.judgeClaim
  split
  · exact h
  · refine .ite h.aside ?_
    split
    · exact h
    · split
      · exact h
      · exact h.takeClaimLines _ _ _ _ _ _ _

theorem WireKept.setPeerCode (h : WireKept o s) (i : SlotNo) (r : Receiver) (index code : Nat) :
    WireKept o (setPeerCode i r index code s) := h.aside

theorem WireKept.completeLine (h : WireKept o s) (i : SlotNo) (r : Receiver) (key : Key) (index q v : Nat)
    (bytes : List Byte) : WireKept o (completeLine i r key index q v bytes s) := by
  unfold Machine.completeLine
  split
  · exact h
  · exact .ite h.aside (.ite h.aside ((h.aside.spared ((Spares.refl _).mergeOffer _ _ _ _)).setPeerCode _ _ _ _))

theorem WireKept.judgeLine (h : WireKept o s) (sender : Station) (stamp : Nat) (k : Key) (index : BitVec 16)
    (count fragment : BitVec 4) (q : Byte) (v : BitVec 16) (runs : List Byte) :
    WireKept o (judgeLine sender stamp k index count fragment q v runs s) := by
  unfold Machine.judgeLine
  split
  · exact h
  · refine .ite h.aside ?_
    split
    · exact h
    · refine .ite ?_ ?_
      · refine .ite (h.completeLine _ _ _ _ _ _ _) (.ite h.aside (.ite h.aside ?_))
        split <;> exact h.aside
      · unfold laterFragment
        split
        · exact h.aside
        · exact .ite (.ite (h.completeLine _ _ _ _ _ _ _) h.aside) h.aside

/-! ### Completions and lapses -/

theorem WireKept.activateLines (key : Key) (base stamp : Nat) (places : List Nat) {s : State} (h : WireKept o s) :
    WireKept o (activateLines key base stamp places s) := by
  induction places generalizing s with
  | nil => exact h
  | cons p rest ih => exact ih (.ite h.aside h)

theorem WireKept.ownerCompletion (h : WireKept o s) (e : Entry) (stamp : Nat) (sent : Bool) :
    WireKept o (ownerCompletion e stamp sent s) := by
  unfold Machine.ownerCompletion
  split
  · exact h.spared ((Spares.refl s).openCompletion _ _ _ _)
  · exact .ite (h.activateLines _ _ _ _).tryBuild h.aside
  · refine .ite (.ite ?_ h) (WireKept.withdrawEntries h.aside _ _)
    dsimp only
    split
    · exact h.aside
    · exact h.aside (by simp)
  · exact h

theorem WireKept.lapseOwn (h : WireKept o s) (key : Key) (index : Nat) : WireKept o (lapseOwn key index s) :=
  (h.request (Entry.isFragmentOf key index) .remove).retryBuild s

end

/-! ## What a step makes of the share line -/

/-- The SLC's part in a frame, its signals to the line, silent mode and the damage run. -/
def lineView (s : State) : TxRole × Bool × Bool × Option Nat × Nat :=
  (s.slc.role, s.slc.sle, s.slc.sltRecessive, s.slc.silent, s.slc.damageRun)

theorem lineView_eq_iff {s u : State} : lineView u = lineView s ↔
    u.slc.role = s.slc.role ∧ u.slc.sle = s.slc.sle ∧ u.slc.sltRecessive = s.slc.sltRecessive ∧
    u.slc.silent = s.slc.silent ∧ u.slc.damageRun = s.slc.damageRun := by
  simp [lineView]

/-- An act that leaves the frame on the wire and the part's side of the line as they are, and stops no running part. -/
structure KeepsLine (s u : State) : Prop where
  wire : WireKept s u
  phase : u.phase ≠ .running → s.phase ≠ .running
  line : lineView u = lineView s

section
variable {o s u v : State}

theorem KeepsLine.of_wire (hwire : WireKept s u) (hphase : u.phase = s.phase := by simp)
    (hline : lineView u = lineView s := by simp [lineView]) : KeepsLine s u := ⟨hwire, fun h => hphase ▸ h, hline⟩

theorem KeepsLine.refl (s : State) : KeepsLine s s := .of_wire (.refl s)

theorem KeepsLine.advance (s : State) (t : Nat) : KeepsLine s (advance t s) :=
  .of_wire (Spares.wireKept ((Spares.refl s).advance t))

theorem KeepsLine.trans (h : KeepsLine s v) (h' : KeepsLine v u) : KeepsLine s u :=
  ⟨h.wire.trans h'.wire, fun hu => h.phase (h'.phase hu), h'.line.trans h.line⟩

theorem KeepsLine.ite {p : Prop} [Decidable p] {a b : State} (ha : KeepsLine o a) (hb : KeepsLine o b) :
    KeepsLine o (if p then a else b) := by
  split
  · exact ha
  · exact hb

theorem KeepsLine.wired (h : KeepsLine s u) (hs : Wired s.slc) : Wired u.slc := by
  obtain ⟨hwire, -, hline⟩ := h
  obtain ⟨hrole, hsle, -, hsilent, hrun⟩ := lineView_eq_iff.mp hline
  refine ⟨?_, ?_, ?_, ?_⟩
  · rw [hrole, ← hs.wire]
    exact hwire
  · rw [hrole, hsle]
    exact hs.sle
  · rw [hrole, hsilent]
    exact hs.silent
  · rw [hrun]
    exact hs.run

theorem KeepsLine.offTheLine (h : KeepsLine s u) (hs : OffTheLine s) : OffTheLine u := by
  intro hstopped
  obtain ⟨hrole, hsle, hslt, -, -⟩ := lineView_eq_iff.mp h.line
  rw [hrole, hsle, hslt]
  exact hs (h.phase hstopped)

/-- The share line at rest, silent or not, is wired. -/
theorem Wired.of_idle {l : Slc} (hrole : l.role = .none) (hsle : l.sle = false) (hwire : onWireIn l.queue = 0)
    (hrun : l.damageRun < 16) : Wired l where
  wire := by rw [if_pos hrole]; exact hwire
  sle := by simp [hrole, hsle]
  silent _ := hrole
  run := hrun

theorem Wired.onWireIn_idle {l : Slc} (h : Wired l) (hrole : l.role = .none) : onWireIn l.queue = 0 :=
  h.wire.trans (if_pos hrole)

theorem Wired.onWireIn_busy {l : Slc} (h : Wired l) (hrole : l.role ≠ .none) : onWireIn l.queue = 1 :=
  h.wire.trans (if_neg hrole)

theorem Wired.sle_idle {l : Slc} (h : Wired l) (hrole : l.role = .none) : l.sle = false :=
  Bool.eq_false_iff.mpr fun hsle => h.sle.mp hsle hrole

theorem Wired.tryBuild (h : Wired s.slc) : Wired (tryBuild s).slc := (KeepsLine.of_wire (WireKept.refl s).tryBuild).wired h

/-! ### The own frame (R101, R102, R106 to R108) -/

theorem Wired.startFrame (h : Wired s.slc) (hmay : mayStart s = true) {n : Nat} (hn : offeredPlace s.slc.queue = some n) :
    Wired (startFrame n s).slc := by
  obtain ⟨-, -, hsilent, hrole⟩ := mayStart_iff.mp hmay
  exact {
    wire := onWireIn_start (h.onWireIn_idle hrole) (offeredPlace_first hn).1
    sle := by simp [Machine.startFrame]
    silent := fun hs => absurd hsilent hs
    run := h.run }

theorem Wired.loseArbitration (h : Wired s.slc) (e : Entry) (bit : Nat) : Wired (loseArbitration e bit s).slc := by
  have hlost (bits : List Bool) : Wired { stopDriving bits s.slc with queue := loseQueue s.slc.queue } :=
    .of_idle rfl rfl (onWireIn_loseQueue _) h.run
  unfold Machine.loseArbitration
  dsimp only
  split
  · exact Wired.tryBuild (hlost _)
  · exact hlost _

/-- A frame that has won is still the one on the wire. -/
theorem Wired.win (h : Wired s.slc) (hrole : s.slc.role = .contending) (bits : List Bool) (run : Nat) (slt : Bool) :
    Wired { s.slc with
      role := .sending, rx := some bits, recessiveRun := run, sltRecessive := slt,
      queue := s.slc.queue.map (Entry.win s.clock) } where
  wire := (onWireIn_win s.clock _).trans (h.onWireIn_busy (by simp [hrole]))
  sle := by simp [h.sle, hrole]
  silent hs := absurd (h.silent hs) (by simp [hrole])
  run := h.run

theorem onWireIn_filter {q : List Entry} (h : onWireIn q = 0) (keep : Entry → Bool) : onWireIn (q.filter keep) = 0 :=
  Nat.eq_zero_of_le_zero (h ▸ (List.filter_sublist).countP_le)

/-- Silent mode begins on a line at rest and clears the damage run (R107). -/
theorem Wired.enterSilent (hrole : s.slc.role = .none) (hsle : s.slc.sle = false) (hwire : onWireIn s.slc.queue = 0) :
    Wired (enterSilent s).slc := by
  rw [enterSilent_eq]
  exact (KeepsLine.of_wire ((Spares.refl _).raiseNote _ _ _).wireKept).wired
    (.of_idle hrole hsle (onWireIn_filter hwire _) (Nat.zero_lt_succ 15))

/-- The sixteenth DAMAGED in a row ends in silent mode, so the damage run stays below 16 (R106, R107). -/
theorem completeSend_wired (e : Entry) (outcome : SendOutcome) (s : State) : Wired (completeSend e outcome s).slc := by
  obtain ⟨hqueue, hrole, hsle, -⟩ := sendEnded_frame e outcome s
  have hwire : onWireIn (sendEnded e outcome s).slc.queue = 0 :=
    onWireIn_eq_zero fun d hd => by
      rw [hqueue] at hd
      simpa using (List.mem_filter.mp hd).2
  have howned : onWireIn (ownerCompletion e (sendEnded e outcome s).now (decide (outcome = .sent))
      (Machine.tryBuild (sendEnded e outcome s))).slc.queue = 0 :=
    Eq.trans ((WireKept.refl (sendEnded e outcome s)).tryBuild.ownerCompletion _ _ _) hwire
  rw [completeSend_eq]
  dsimp only
  split
  · exact .enterSilent (by simp [hrole]) (by simp [hsle]) howned
  · next hrun => exact .of_idle (by simp [hrole]) (by simp [hsle]) howned (by simpa using hrun)

theorem Wired.silentEnded (h : Wired s.slc) :
    Wired (Machine.tryBuild (raiseNote 13 none 0 (setSlc { s.slc with silent := none } s))).slc := by
  have hended : Wired { s.slc with silent := none } := ⟨h.wire, h.sle, fun hs => absurd rfl hs, h.run⟩
  have hnoted : WireKept (setSlc { s.slc with silent := none } s)
      (raiseNote 13 none 0 (setSlc { s.slc with silent := none } s)) := ((Spares.refl _).raiseNote _ _ _).wireKept
  exact Wired.tryBuild ((KeepsLine.of_wire hnoted).wired hended)

/-! ### Heard frames (R109, R165) -/

/-- A link restart empties the queue and ends silent mode, while no frame of this station is on the wire (R165, R166). -/
theorem Wired.judgeRestart (h : Wired s.slc) (hrole : s.slc.role = .none) (sender : Station) (stamp : Nat)
    (mask : BitVec 16) : Wired (judgeRestart sender stamp mask s).slc := by
  have hflushed : Wired (clearExchange (flushQueue s)).slc := .of_idle hrole (h.sle_idle hrole) rfl (Nat.zero_lt_succ 15)
  have hforgotten {v : State} (hv : Spares (clearExchange (flushQueue s)) v) :
      Spares (clearExchange (flushQueue s)) { v with ssv := { v.ssv with peers := Vector.replicate 16 none } } := hv.aside
  unfold Machine.judgeRestart
  split
  · refine KeepsLine.wired (.of_wire (Spares.wireKept ?_) (by simp) (by simp [lineView, linkRestart])) hflushed
    exact ((hforgotten (Spares.refl _).setAllDirty).markPresent sender stamp).enqueue (newEntry_plain (by rfl) _)
  · exact h

theorem Wired.dispatch (h : Wired s.slc) (hrole : s.slc.role = .none) (sender : Station) (stamp : Nat) (p : Payload) :
    Wired (dispatch sender stamp p s).slc := by
  have hrefl := Spares.refl s
  have hkept := WireKept.refl s
  cases p with
  | openF => exact (KeepsLine.of_wire (hkept.judgeOpen _ _ _ _ _ _)).wired h
  | closeF => exact (KeepsLine.of_wire (hrefl.judgeClose _ _ _).wireKept).wired h
  | dropF => exact (KeepsLine.of_wire (hkept.judgeDrop _)).wired h
  | tallyF => exact (KeepsLine.of_wire (hrefl.judgeTally _ _ _ _).wireKept).wired h
  | wantF => exact (KeepsLine.of_wire (hkept.judgeWant _ _ _ _ _)).wired h
  | claimF => exact (KeepsLine.of_wire (hkept.judgeClaim _ _ _ _ _ _)).wired h
  | lineF => exact (KeepsLine.of_wire (hkept.judgeLine _ _ _ _ _ _ _ _ _)).wired h
  | restartF => exact h.judgeRestart hrole _ _ _
  | askF => exact (KeepsLine.of_wire (hrefl.judgeAsk _ _ _).wireKept).wired h
  | rosterF => exact (KeepsLine.of_wire (hrefl.judgeRoster _ _ _).wireKept).wired h
  | describeNullF | describeF | noteF | reportF => exact h

theorem Wired.takeFate (h : Wired s.slc) (hrole : s.slc.role = .none) (f : Fate) : Wired (takeFate f s).slc := by
  have hrefl := Spares.refl s
  cases f with
  | damaged => exact h
  | clash => exact (KeepsLine.of_wire ((hrefl.bump 5 1).raiseNote _ _ _).wireKept).wired h
  | malformed sender => exact (KeepsLine.of_wire ((hrefl.markPresent _ _).bump 5 1).wireKept).wired h
  | heard sender p =>
    have hmarked := KeepsLine.of_wire (((hrefl.markPresent sender s.now).bump 4 1).refreshOf p s.now).wireKept
    exact (hmarked.wired h).dispatch (by simp [hrole]) sender s.now p

/-! ### The step -/

/-- A step keeps the part's side of the line, resets it, or acts on the line: while running, or with a part in a frame. -/
inductive LineMove (s u : State) : Prop
  | keeps (h : KeepsLine s u)
  | resets (h : u.slc = State.reset.slc)
  | acts (hphase : u.phase = s.phase) (hon : s.phase = .running ∨ s.slc.role ≠ .none)
      (hwired : Wired s.slc → Wired u.slc)

theorem LineMove.after (t : Nat) (h : LineMove (advance t s) u) : LineMove s u := by
  have hadvanced := KeepsLine.advance s t
  cases h with
  | keeps h => exact .keeps (hadvanced.trans h)
  | resets h => exact .resets h
  | acts hphase hon hwired =>
    exact .acts (by simpa using hphase) (by simpa using hon) fun h => hwired (hadvanced.wired h)

theorem LineMove.refl (s : State) : LineMove s s := .keeps (.refl s)

theorem LineMove.wired (h : LineMove s u) (hs : Wired s.slc) : Wired u.slc := by
  cases h with
  | keeps h => exact h.wired hs
  | resets h => exact h ▸ reset_wired
  | acts _ _ hwired => exact hwired hs

theorem LineMove.offTheLine (h : LineMove s u) (hs : OffTheLine s) : OffTheLine u := by
  cases h with
  | keeps h => exact h.offTheLine hs
  | resets h => exact fun _ => h ▸ ⟨rfl, rfl, rfl⟩
  | acts hphase hon _ =>
    intro hstopped
    rw [hphase] at hstopped
    exact (hon.elim hstopped fun hrole => hrole (hs hstopped).1).elim

theorem frameEvent_lineMove (named : Fate → Bool) (t : Nat) (bits : List Bool) (s : State) :
    LineMove s (frameEvent named t bits s) := by
  refine .after t ?_
  unfold Machine.frameEvent
  generalize advance t s = v
  dsimp only
  split
  · next hhears =>
    obtain ⟨hrun, -, hrole⟩ := hearsFrame_iff.mp hhears
    split
    · next f _ =>
      split
      · exact .acts (by simp) (.inl hrun) fun hv =>
          Wired.takeFate (s := frameEnded _ v) ⟨hv.wire, hv.sle, hv.silent, hv.run⟩ hrole f
      · exact .refl v
    · exact .refl v
  · exact .refl v

theorem bootStep_slc (s : State) : (bootStep s).slc = s.slc := by
  unfold bootStep freeBootBus
  split
  · rfl
  · split
    · rfl
    · split
      · rfl
      · dsimp only
        split <;> rfl

theorem takeBootSteps_slc (n : Nat) (s : State) : (takeBootSteps n s).slc = s.slc := by
  induction n generalizing s with
  | zero => rfl
  | succ n ih => exact (ih _).trans (bootStep_slc s)

theorem running_of_reached {due : Option Nat} (h : reached due s = true) : s.phase = .running := by
  cases due with
  | none => cases h
  | some d => exact beq_iff_eq.mp (Bool.and_eq_true_iff.mp h).1

theorem loseArbitration_phase (e : Entry) (bit : Nat) (s : State) : (loseArbitration e bit s).phase = s.phase := by
  unfold loseArbitration
  dsimp only
  split <;> simp

theorem completeSend_phase (e : Entry) (outcome : SendOutcome) (s : State) : (completeSend e outcome s).phase = s.phase := by
  have hended : (sendEnded e outcome s).phase = s.phase := by
    obtain ⟨-, -, -, -, -, -, -, -, -, -, -, hphase, -⟩ := sendEnded_frame e outcome s
    exact hphase
  rw [completeSend_eq]
  dsimp only
  split <;> simp [hended]

theorem wantExpiry_keepsLine (i : SlotNo) (due : Nat) (s : State) : KeepsLine s (wantExpiry i due s) := by
  refine .of_wire ((Spares.refl s).wantExpiry i due).wireKept ?_ ?_
  all_goals
    unfold wantExpiry resendOpen
    split
    · simp [lineView]
    · split <;> simp [lineView]

theorem sweepOver_keepsLine (i : SlotNo) (s : State) : KeepsLine s (sweepOver i s) := by
  refine .of_wire ((Spares.refl s).sweepOver i).wireKept ?_ ?_
  all_goals
    unfold sweepOver
    split <;> simp [lineView]

theorem exec_lineMove {c : Instr} (hexec : exec c s = .next u) : LineMove s u := by
  cases c <;> cases hexec
  case reset.refl pin =>
    cases pin with
    | low => exact .resets rfl
    | released =>
      dsimp only
      split
      · next hreset => exact .keeps ⟨.refl s, fun _ => by simp [hreset], rfl⟩
      · exact .refl s
  case endOfBoot.refl n =>
    split
    · exact .keeps ⟨(WireKept.refl s).aside (by simp [finishBoot, freeBootBus, takeBootSteps_slc]), fun h => absurd rfl h,
        by simp [lineView, finishBoot, freeBootBus, takeBootSteps_slc]⟩
    · exact .refl s
  case levelWord.refl t word =>
    exact .after t (.keeps (.ite (.of_wire ((WireKept.refl _).takeWord _)) (.refl _)))
  case wordDiscard.refl t => exact .keeps (.advance s t)
  case gainDownEnd.refl t | phasingTimeout.refl t | lineIdle.refl t =>
    exact .after t (.keeps (.ite (.of_wire rfl) (.refl _)))
  case lineBusy.refl t => exact .after t (.keeps (.ite (.refl _) (.ite (.of_wire rfl) (.of_wire rfl))))
  case frameStart.refl t =>
    refine .after t ?_
    generalize advance t s = v
    split
    · next hmay =>
      split
      · next hn => exact .acts rfl (.inl (mayStart_iff.mp hmay).1) fun hv => hv.startFrame hmay hn
      · exact .refl v
    · exact .refl v
  case arbitrationLost.refl t bit =>
    refine .after t ?_
    generalize advance t s = v
    split
    · next hrole _ =>
      split
      · exact .acts (loseArbitration_phase _ _ _) (.inr (by simp [hrole])) fun hv => hv.loseArbitration _ _
      · exact .refl v
    · exact .refl v
  case arbitrationWon.refl t =>
    refine .after t ?_
    generalize advance t s = v
    split
    · next hrole _ => exact .acts rfl (.inr (by simp [hrole])) fun hv => hv.win hrole _ _ _
    · exact .refl v
  case sendCompletion.refl t outcome =>
    refine .after t ?_
    generalize advance t s = v
    split
    · split
      · next hpossible =>
        refine .acts (completeSend_phase _ _ _) (.inr fun hrole => ?_) fun _ => completeSend_wired _ _ _
        rw [hrole, outcomePossible_none] at hpossible
        cases hpossible
      · exact .refl v
    · exact .refl v
  case silentEnd.refl t =>
    refine .after t ?_
    generalize advance t s = v
    split
    · next hreached =>
      exact .acts (by simp) (.inl (running_of_reached hreached)) Wired.silentEnded
    · exact .refl v
  case frameDamaged.refl | frameMalformed.refl | clash.refl | openHeard.refl | closeHeard.refl | dropHeard.refl |
      tallyHeard.refl | wantHeard.refl | claimHeard.refl | lineHeard.refl | restartHeard.refl | askHeard.refl |
      rosterHeard.refl | infoHeard.refl => exact frameEvent_lineMove _ _ _ s
  case tallyExpiry.refl t =>
    exact .after t (.keeps (.ite (.of_wire (Spares.tallyRound (Spares.refl _).aside).wireKept) (.refl _)))
  case wantTimerExpiry.refl t i =>
    refine .after t (.keeps ?_)
    split
    · exact .ite (wantExpiry_keepsLine _ _ _) (.refl _)
    · exact .refl _
  case sweepDeadline.refl t i =>
    refine .after t (.keeps ?_)
    split
    · exact .ite (sweepOver_keepsLine _ _) (.refl _)
    · exact .refl _
  case silenceClose.refl t i =>
    refine .after t (.keeps ?_)
    split
    · exact .ite (.of_wire ((Spares.refl _).closeSlot _ _).wireKept) (.refl _)
    · exact .refl _
  case claimLapse.refl t key index =>
    refine .after t (.keeps ?_)
    split
    · exact .ite (.of_wire ((WireKept.refl _).lapseOwn _ _)) (.refl _)
    · exact .refl _
  case heardLapse.refl t key index r =>
    refine .after t (.keeps ?_)
    split
    · exact .ite (.of_wire (WireKept.aside (.refl _))) (.refl _)
    · exact .refl _
  case reassemblyTimeout.refl t r key index =>
    refine .after t (.keeps ?_)
    split
    · exact .ite (.of_wire (((Spares.refl _).setAssemblies _).bump 5 1).wireKept) (.refl _)
    · exact .refl _
  case peerAbsent.refl t st =>
    refine .after t (.keeps ?_)
    split
    · exact .ite (.of_wire ((Spares.refl _).declareAbsent _).wireKept) (.refl _)
    · exact .refl _
  case rosterExpiry.refl t | minuteExpiry.refl t =>
    refine .after t (.keeps (.ite (.of_wire (Spares.wireKept ?_)) (.refl _)))
    exact (Spares.refl _).aside.enqueue (newEntry_plain (by rfl) _)

theorem idleStep_keepsLine (s : State) : KeepsLine s (idleStep s) := by
  unfold idleStep
  split
  · exact .refl s
  · exact .of_wire ((WireKept.refl s).aside (by rw [bootStep_slc])) (bootStep_phase s) (by simp [lineView, bootStep_slc])
  · exact .of_wire rfl

theorem step_lineMove (hstep : step s = .next u) : LineMove s u := by
  unfold step at hstep
  split at hstep
  · cases hstep
    exact .keeps (idleStep_keepsLine s)
  · cases exec_lineMove hstep with
    | keeps h => exact .keeps ⟨h.wire, h.phase, h.line⟩
    | resets h => exact .resets h
    | acts hphase hon hwired => exact .acts hphase hon hwired

end

/-- Settles O59: every step is a move of the line, and each of the three moves keeps both. -/
theorem stepKeepsWire : Obligations.StepKeepsWire :=
  ⟨fun _ _ hs hstep => (step_lineMove hstep).wired hs, fun _ _ hs hstep => (step_lineMove hstep).offTheLine hs⟩

end Sys2Proof.Machine

/-! Proofs for chapters 7 and 10: tallies, wants and claims heard, the lines a round wants, and the end of boot. -/

namespace Sys2Proof.Machine

/-! ## Frames of the exchange judged (R118, R130, R138) -/

theorem baseOk_iff {base : BitVec 16} : baseOk base = true ↔ base.toNat % 32 = 0 ∧ base.toNat ≤ 2016 := by
  simp [baseOk]

theorem receiverOf_viewer {st : Station} (h : 8 ≤ st.val) : receiverOf st = none := dif_neg (Nat.not_lt.mpr h)

theorem exists_receiver_of_lt {st : Station} (h : st.val < 8) : ∃ r : Receiver, stationOf r = st := ⟨⟨st.val, h⟩, rfl⟩

/-- A frame of a well-formed payload heard is dispatched behind its marks (R111). -/
theorem exec_heard_sized {s : State} {sender : Station} (h : hears s sender) (t : Nat) {p : Payload} (hp : p.sized = true) :
    exec (heardCommand t sender p) s = .next (dispatch sender (stampAt t s) p (heardBy t sender p s)) :=
  exec_heardCommand h t (readData_bytes hp).2 (readData_bytes hp).1

theorem heardBy_own {s : State} (t : Nat) (sender : Station) (p : Payload) : (heardBy t sender p s).ssv.own = s.ssv.own := by
  simp [heardBy]

/-! ## Codes written to a column (R117, R118) -/

section
variable {s : State} {i : SlotNo} {r : Receiver}

theorem column_setPeerCode (index code : Nat) :
    ((setPeerCode i r index code s).xen.views[i])[r] = writeCode (s.xen.views[i])[r] index code := by
  simp [setPeerCode]

theorem column_setPeerCode_other {m : SlotNo} {x : Receiver} (h : m ≠ i ∨ x ≠ r) (index code : Nat) :
    ((setPeerCode i r index code s).xen.views[m])[x] = (s.xen.views[m])[x] := by
  by_cases hm : m = i
  · subst hm
    have hx : r.val ≠ x.val := fun he => h.elim (· rfl) (· (Fin.ext he.symm))
    simp [setPeerCode, hx]
  · have hval : i.val ≠ m.val := fun he => hm (Fin.ext he.symm)
    simp [setPeerCode, hval]

theorem peerCode_setPeerCode (h : columnWf (s.xen.views[i])[r]) (index code j : Nat) :
    peerCode (setPeerCode i r index code s) i r j = if j = index then code else peerCode s i r j := by
  rw [peerCode, column_setPeerCode, codeAt_writeCode _ _ _ _ h.1]
  rfl

theorem columnWf_setPeerCode (h : columnWf (s.xen.views[i])[r]) (index code : Nat) :
    columnWf ((setPeerCode i r index code s).xen.views[i])[r] := by
  rw [column_setPeerCode]
  exact writeCode_keeps_wf _ _ _ h

/-- Writing codes moves the views alone. -/
theorem writeCodes_eq (codes : List (BitVec 4)) (j : Nat) (s : State) :
    writeCodes i r j codes s = { s with xen := { s.xen with views := (writeCodes i r j codes s).xen.views } } :=
  writeCodes_preserves (fun u => { u with xen := { u.xen with views := (writeCodes i r j codes s).xen.views } })
    (fun _ _ _ _ _ => rfl) i r codes j s

theorem column_writeCodes_other {m : SlotNo} {x : Receiver} (h : m ≠ i ∨ x ≠ r) (codes : List (BitVec 4)) (j : Nat)
    (s : State) : ((writeCodes i r j codes s).xen.views[m])[x] = (s.xen.views[m])[x] := by
  induction codes generalizing j s with
  | nil => rfl
  | cons c rest ih => rw [writeCodes, ih, column_setPeerCode_other h]

theorem peerCode_writeCodes_outside (codes : List (BitVec 4)) {j n : Nat} (hn : n < j ∨ j + codes.length ≤ n) {s : State}
    (h : columnWf (s.xen.views[i])[r]) : peerCode (writeCodes i r j codes s) i r n = peerCode s i r n := by
  induction codes generalizing j s with
  | nil => rfl
  | cons c rest ih =>
    rw [List.length_cons] at hn
    rw [writeCodes, ih (by omega) (columnWf_setPeerCode h _ _), peerCode_setPeerCode h, if_neg (by omega)]

/-- Each code written stands, whatever its line's code was (R118). -/
theorem peerCode_writeCodes {codes : List (BitVec 4)} {n : Nat} {c : BitVec 4} (hc : codes[n]? = some c) (j : Nat)
    {s : State} (h : columnWf (s.xen.views[i])[r]) : peerCode (writeCodes i r j codes s) i r (j + n) = c.toNat := by
  induction codes generalizing j n s with
  | nil => simp at hc
  | cons d rest ih =>
    have hwf := columnWf_setPeerCode h j d.toNat
    cases n with
    | zero =>
      obtain rfl : d = c := by simpa using hc
      rw [writeCodes, peerCode_writeCodes_outside rest (by omega) hwf, peerCode_setPeerCode h, if_pos (add_zero j)]
    | succ n =>
      rw [writeCodes, show j + (n + 1) = j + 1 + n by omega]
      exact ih (by simpa using hc) (j + 1) hwf

end

/-! ## A heard TALLY (R118) -/

section
variable {s : State} {sender : Station} {k : Key} {base : BitVec 16} {codes : List (BitVec 4)}

theorem judgeTally_viewer (h : 8 ≤ sender.val) : judgeTally sender k base codes s = s := by
  simp only [judgeTally, receiverOf_viewer h]

theorem judgeTally_badBase (h8 : sender.val < 8) (h : ¬ (base.toNat % 32 = 0 ∧ base.toNat ≤ 2016)) :
    judgeTally sender k base codes s = bump 5 1 s := by
  obtain ⟨r, rfl⟩ := exists_receiver_of_lt h8
  simp only [judgeTally, receiverOf_stationOf, Bool.eq_false_iff.mpr (mt baseOk_iff.mp h)]
  rfl

theorem judgeTally_unreached (h8 : sender.val < 8) (h : base.toNat % 32 = 0 ∧ base.toNat ≤ 2016)
    (hslot : slotOf s k = none) : judgeTally sender k base codes s = s := by
  obtain ⟨r, rfl⟩ := exists_receiver_of_lt h8
  simp only [judgeTally, receiverOf_stationOf, baseOk_iff.mpr h, hslot]
  rfl

theorem judgeTally_reached {r : Receiver} {i : SlotNo} (h : base.toNat % 32 = 0 ∧ base.toNat ≤ 2016)
    (hslot : slotOf s k = some i) : judgeTally (stationOf r) k base codes s = writeCodes i r base.toNat codes s := by
  simp only [judgeTally, receiverOf_stationOf, baseOk_iff.mpr h, hslot]
  rfl

end

/-- Settles O39: the codes are written one by one to the view that the hearing left as it was. -/
theorem tallyOverwritesColumn : Obligations.TallyOverwritesColumn := by
  intro s t sender k base codes hh hlength p b
  have hexec : exec (.tallyHeard t sender (frameTail sender p)) s = .next (judgeTally sender k base codes b) :=
    exec_heard_sized hh t (p := p) (by simp [p, Payload.sized, hlength])
  have hslot : slotOf b k = slotOf s k := slotOf_heardBy t p k
  have hxen : b.xen = s.xen := heardBy_xen t sender p
  rw [hexec]
  refine ⟨fun h8 => congrArg _ (judgeTally_viewer h8), fun h8 hbad => congrArg _ (judgeTally_badBase h8 hbad),
    fun h8 hmul hle hnone => congrArg _ (judgeTally_unreached h8 ⟨hmul, hle⟩ (hslot.trans hnone)),
    fun r i hr hmul hle hsome hwf => ?_⟩
  subst hr
  rw [← hxen] at hwf
  refine ⟨writeCodes i r base.toNat codes b, congrArg _ (judgeTally_reached ⟨hmul, hle⟩ (hslot.trans hsome)),
    writeCodes_eq codes base.toNat b, fun j c hc => peerCode_writeCodes hc base.toNat hwf, fun j hj => ?_, fun m x h => ?_⟩
  · rw [peerCode_writeCodes_outside codes (by omega) hwf, peerCode, hxen]
    rfl
  · rw [column_writeCodes_other h, hxen]

/-! ## A heard WANT (R130, R135, R136) -/

section
variable {s : State} {k : Key} {base : BitVec 16} {mask : BitVec 32} {codes : List (BitVec 4)} {stations : BitVec 16}

theorem judgeWant_badBase (h : ¬ (base.toNat % 32 = 0 ∧ base.toNat ≤ 2016)) :
    judgeWant k base mask codes stations s = bump 5 1 s := by
  simp only [judgeWant, Bool.eq_false_iff.mpr (mt baseOk_iff.mp h)]
  rfl

/-- A WANT for no slot here, or for other stations, is ignored (R130). -/
theorem judgeWant_ignored (h : base.toNat % 32 = 0 ∧ base.toNat ≤ 2016)
    (hother : slotOf s k = none ∨ stations.getLsbD s.ssv.own.val = false) : judgeWant k base mask codes stations s = s := by
  simp only [judgeWant, baseOk_iff.mpr h, Bool.not_true, Bool.false_eq_true, if_false]
  split
  · rfl
  · next i hslot =>
    have hunnamed := hother.resolve_left (by simp [hslot])
    simp only [hunnamed, Bool.false_eq_true, if_false]

theorem judgeWant_answers {i : SlotNo} {c : Chart} (h : base.toNat % 32 = 0 ∧ base.toNat ≤ 2016)
    (hslot : slotOf s k = some i) (hnamed : stations.getLsbD s.ssv.own.val = true) (hc : recordAt s i = some c) :
    judgeWant k base mask codes stations s =
      answerWant i base.toNat mask codes (setChart i (some { c with used := true }) s) := by
  simp only [judgeWant, baseOk_iff.mpr h, hslot, hnamed, updateChart_eq hc, Bool.not_true, Bool.false_eq_true, if_false,
    if_true]

theorem candidatePlaces_eq (c : Chart) (base : Nat) : candidatePlaces s c base mask codes =
    (List.range 32).filter (fun n => mask.getLsbD n && (mapGet c.lineMap (base + n)).isSome &&
      decide ((codes.getD n 0).toNat + 2 ≤ ownCode c (base + n)) &&
      !s.xen.claims.any (fun d => d.key == c.key && d.index == base + n)) := by
  rw [candidatePlaces, maskPlaces, List.filter_filter]
  refine List.filter_congr fun n _ => ?_
  rw [Bool.and_comm, ← Bool.and_assoc, ← Bool.and_assoc]
  rfl

/-- The answer: what the table has no room for counts, the rest is claimed once its CLAIM is queued (R135, R136). -/
theorem answerWant_eq {i : SlotNo} {c : Chart} (hc : recordAt s i = some c) (base : Nat) :
    answerWant i base mask codes s =
      let places := candidatePlaces s c base mask codes
      let taken := places.take (64 - s.xen.claims.length)
      let counted := bump 13 (places.length - taken.length) s
      let offer := enqueue (newEntry (.claimF c.key (BitVec.ofNat 16 base) (lineMask taken) (blockCodes c base)) .xen) counted
      if taken = [] then counted
      else if offer.2 then
        setClaims (s.xen.claims ++ taken.map (fun n => pendingClaim s.ssv.own c (base + n))) offer.1
      else offer.1 := by
  simp only [answerWant, hc, Config.claimRoom, enqueue_keeps, bump_xen]
  rfl

end

/-- Settles O40: the used flag, and an answer from the claim table, which the hearing left as it was. -/
theorem wantAnswered : Obligations.WantAnswered := by
  intro s t sender k base mask have' stations hh hlength p b
  have hexec : exec (.wantHeard t sender (frameTail sender p)) s = .next (judgeWant k base mask have' stations b) :=
    exec_heard_sized hh t (p := p) (by simp [p, Payload.sized, hlength])
  have hslot : slotOf b k = slotOf s k := slotOf_heardBy t p k
  have hxen : b.xen = s.xen := heardBy_xen t sender p
  have hown : b.ssv.own = s.ssv.own := heardBy_own t sender p
  rw [hexec]
  refine ⟨fun hbad => congrArg _ (judgeWant_badBase hbad), fun hmul hle hother => congrArg _ ?_,
    ?_⟩
  · exact judgeWant_ignored ⟨hmul, hle⟩ (by rwa [hslot, hown])
  · intro i c hmul hle hnamed hsome hc answer taken used offer
    have hanswer : candidatePlaces (setChart i (some { c with used := true }) b) { c with used := true } base.toNat mask have' =
        answer := by
      rw [candidatePlaces_eq, setChart_xen, hxen]
      rfl
    refine congrArg Host.Outcome.next ?_
    rw [judgeWant_answers ⟨hmul, hle⟩ (hslot.trans hsome) (hown ▸ hnamed) hc, answerWant_eq (recordAt_setChart_same ..), hanswer]
    simp only [setChart_xen, setChart_ssv, hxen, hown, BitVec.ofNat_toNat, BitVec.setWidth_eq]
    rfl

/-! ## A heard CLAIM (R119, R138 to R140) -/

section
variable {s : State} {sender : Station} {stamp : Nat} {k : Key} {base : BitVec 16} {mask : BitVec 32}
  {codes : List (BitVec 4)}

theorem judgeClaim_viewer (h : 8 ≤ sender.val) : judgeClaim sender stamp k base mask codes s = s := by
  simp only [judgeClaim, receiverOf_viewer h]

/-- A CLAIM of no block, or of no line of its block, is malformed (R138). -/
theorem judgeClaim_malformed (h8 : sender.val < 8) (h : ¬ (base.toNat % 32 = 0 ∧ base.toNat ≤ 2016) ∨ mask = 0) :
    judgeClaim sender stamp k base mask codes s = bump 5 1 s := by
  obtain ⟨r, rfl⟩ := exists_receiver_of_lt h8
  simp only [judgeClaim, receiverOf_stationOf]
  refine if_pos ?_
  rwa [Bool.or_eq_true, Bool.not_eq_true', ← Bool.not_eq_true, baseOk_iff, beq_iff_eq]

theorem judgeClaim_unreached (h8 : sender.val < 8) (h : base.toNat % 32 = 0 ∧ base.toNat ≤ 2016) (hmask : mask ≠ 0)
    (hslot : slotOf s k = none) : judgeClaim sender stamp k base mask codes s = s := by
  obtain ⟨r, rfl⟩ := exists_receiver_of_lt h8
  simp only [judgeClaim, receiverOf_stationOf, baseOk_iff.mpr h, beq_false_of_ne hmask, hslot]
  rfl

theorem judgeClaim_taken {r : Receiver} {i : SlotNo} {c : Chart} (h : base.toNat % 32 = 0 ∧ base.toNat ≤ 2016)
    (hmask : mask ≠ 0) (hslot : slotOf s k = some i) (hc : recordAt s i = some c) :
    judgeClaim (stationOf r) stamp k base mask codes s =
      takeClaimLines i c.key r base.toNat stamp codes (maskPlaces mask) s := by
  simp only [judgeClaim, receiverOf_stationOf, baseOk_iff.mpr h, beq_false_of_ne hmask, hslot, hc]
  rfl

end

/-- The lines of a CLAIM are taken one after the other (R119, R139, R140). -/
theorem takeClaimLines_eq_foldl (i : SlotNo) (key : Key) (r : Receiver) (base stamp : Nat) (codes : List (BitVec 4))
    (places : List Nat) (s : State) : takeClaimLines i key r base stamp codes places s =
      places.foldl (fun u n => setPeerCode i r (base + n) (codes.getD n 0).toNat
        (recordHeard key (base + n) r stamp (yieldPending key base n (codes.getD n 0).toNat u))) s := by
  induction places generalizing s with
  | nil => rfl
  | cons p rest ih => rw [takeClaimLines, ih, List.foldl_cons]

section
variable {s : State} {key : Key} {base n code : Nat} {d : Claim}

theorem yieldPending_unclaimed (h : s.xen.claims.find? (Claim.isPendingOf key (base + n)) = none) :
    yieldPending key base n code s = s := by
  simp only [yieldPending, h]

theorem yieldPending_stands (h : s.xen.claims.find? (Claim.isPendingOf key (base + n)) = some d)
    (hcode : code + 3 ≤ d.code.getD 0) : yieldPending key base n code s = s := by
  simp only [yieldPending, h, if_pos hcode]

theorem yieldPending_yields (h : s.xen.claims.find? (Claim.isPendingOf key (base + n)) = some d)
    (hcode : d.code.getD 0 < code + 3) : yieldPending key base n code s =
      bump 9 1 (withdrawEntries (Entry.isClaimOf key base) (.withdrawLines (BitVec.twoPow 32 n))
        (dropClaims (Claim.isPendingOf key (base + n)) s)) := by
  simp only [yieldPending, h, if_neg (Nat.not_le.mpr hcode)]

end

/-- Settles O41: the heard CLAIM's lines one by one, then what a line does to an own entry and to the HEARD one. -/
theorem claimsTaken : Obligations.ClaimsTaken := by
  refine ⟨?_, fun key base n code s => ⟨yieldPending_unclaimed, fun d => yieldPending_stands, fun d => yieldPending_yields⟩, ?_⟩
  · intro s t sender k base mask codes hh hlength p b
    have hexec : exec (.claimHeard t sender (frameTail sender p)) s =
        .next (judgeClaim sender (stampAt t s) k base mask codes b) :=
      exec_heard_sized hh t (p := p) (by simp [p, Payload.sized, hlength])
    have hslot : slotOf b k = slotOf s k := slotOf_heardBy t p k
    rw [hexec]
    refine ⟨fun h8 => congrArg _ (judgeClaim_viewer h8), fun h8 hbad => congrArg _ (judgeClaim_malformed h8 hbad),
      fun h8 hmul hle hmask hnone => congrArg _ (judgeClaim_unreached h8 ⟨hmul, hle⟩ hmask (hslot.trans hnone)),
      fun r i c hr hmul hle hmask hsome hc => congrArg _ ?_⟩
    subst hr
    obtain ⟨d, hd, hkey⟩ := recordAt_of_keysAt (keysAt_heardBy t (stationOf r) p i) hc
    rw [judgeClaim_taken ⟨hmul, hle⟩ hmask (hslot.trans hsome) hd, takeClaimLines_eq_foldl, hkey]
    rfl
  · intro key j r stamp s others
    exact ⟨fun hroom => if_pos hroom, fun hfull => if_neg (Nat.not_lt.mpr hfull)⟩

/-! ## The lines a round wants (R125, R126) -/

section
variable {s : State} {i : SlotNo} {c : Chart}

theorem mem_presentPeers {r : Receiver} : r ∈ presentPeers s ↔ r ≠ s.ssv.own ∧ s.ssv.peers[stationOf r] ≠ none := by
  have hall : r ∈ allReceivers := by revert r; decide
  simp only [presentPeers, otherReceivers, List.mem_filter, hall, true_and, bne_iff_ne, Option.isSome_iff_ne_none]

theorem wantedByView_iff {j : Nat} : wantedByView s i c j = true ↔
    ∃ r : Receiver, r ≠ s.ssv.own ∧ s.ssv.peers[stationOf r] ≠ none ∧ ownCode c j + 2 ≤ peerCode s i r j := by
  simp only [wantedByView, List.any_eq_true, mem_presentPeers, decide_eq_true_eq, and_assoc]

/-- The round of a LIVE slot keeps four lines behind the newest of its image, or behind the highest held (R125). -/
theorem horizon_live_eq (h : c.state = .live) : horizon c =
    (if c.bound then c.newest else c.highestHeld).bind (fun n => if 4 ≤ n then some (n - 4) else none) := by
  simp only [horizon, h]
  split
  · cases c.newest <;> rfl
  · cases c.highestHeld <;> rfl

theorem horizon_live {j : Nat} (h : c.state = .live) : (∃ m, horizon c = some m ∧ j ≤ m) ↔
    ∃ n, (if c.bound then c.newest else c.highestHeld) = some n ∧ j + 4 ≤ n := by
  rw [horizon_live_eq h]
  cases (if c.bound then c.newest else c.highestHeld) with
  | none => simp
  | some n =>
    simp only [Option.bind_some, Option.ite_none_right_eq_some, Option.some.injEq, and_assoc, exists_and_left, exists_eq_left']
    omega

theorem horizon_sweep {j : Nat} (h : c.state = .sweep) : (∃ m, horizon c = some m ∧ j ≤ m) ↔ j + 1 ≤ c.length := by
  by_cases hlength : c.length = 0
  · simp [horizon, h, hlength]
  · simp only [horizon, h, if_neg hlength, Option.some.injEq, exists_eq_left']
    omega

theorem horizon_held (h : c.state = .held) : horizon c = none := by simp only [horizon, h]

theorem askable_eq (j : Nat) : askable s c j = ((horizon c).any (fun m => decide (j ≤ m)) &&
    decide (ownCode c j < s.ssv.boot.wantLevel) && !claimed s.xen.claims c.key j &&
    c.otherKey.all (fun k => !claimed s.xen.claims k j)) := by
  unfold askable
  cases horizon c <;> cases c.otherKey <;> rfl

/-- The conditions of a wanted line other than the peers' codes (R126). -/
theorem askable_eq_true_iff {j : Nat} : askable s c j = true ↔
    (∃ m, horizon c = some m ∧ j ≤ m) ∧ ownCode c j < s.ssv.boot.wantLevel ∧
      ∀ d ∈ s.xen.claims, d.index = j → d.key ≠ c.key ∧ c.otherKey ≠ some d.key := by
  have hclaimed (k : Key) : claimed s.xen.claims k j = false ↔ ∀ d ∈ s.xen.claims, d.index = j → d.key ≠ k := by
    simp only [claimed_eq_false_iff, Claim.line, ne_eq, BuildLine.mk.injEq, not_and']
  have hother : (∀ k, c.otherKey = some k → ∀ d ∈ s.xen.claims, d.index = j → d.key ≠ k) ↔
      ∀ d ∈ s.xen.claims, d.index = j → c.otherKey ≠ some d.key :=
    ⟨fun h d hd hj ho => h d.key ho d hd hj rfl, fun h k ho d hd hj hk => h d hd hj (hk ▸ ho)⟩
  simp only [askable_eq, Bool.and_eq_true, Option.any_eq_true, Option.all_eq_true, decide_eq_true_eq, Bool.not_eq_true',
    hclaimed, hother, and_assoc, imp_and, forall_and]

end

/-! ## The stations a WANT names (R127, R128) -/

theorem getLsbD_addressMask_foldl (rs : List Receiver) (mask : BitVec 16) (n : Nat) :
    (rs.foldl (fun m r => m ||| BitVec.twoPow 16 r.val) mask).getLsbD n =
      (mask.getLsbD n || decide (∃ r ∈ rs, r.val = n)) := by
  induction rs generalizing mask with
  | nil => simp
  | cons r rest ih =>
    have hlt : r.val < 16 := by omega
    rw [List.foldl_cons, ih]
    by_cases hr : n = r.val
    · simp [hr, hlt]
    · simp [Ne.symm hr]

/-- An address mask names the receivers it is given (R179). -/
theorem getLsbD_addressMask {rs : List Receiver} {r : Receiver} : (addressMask rs).getLsbD r.val = true ↔ r ∈ rs := by
  simp [addressMask, getLsbD_addressMask_foldl, Fin.val_inj]

/-- No viewer is named (R179). -/
theorem getLsbD_addressMask_viewer (rs : List Receiver) {n : Nat} (h : 8 ≤ n) : (addressMask rs).getLsbD n = false := by
  have hne (r : Receiver) : r.val ≠ n := by omega
  simp [addressMask, getLsbD_addressMask_foldl, hne]

theorem foldl_max_le_iff {α : Type} (f : α → Nat) (l : List α) (m n : Nat) :
    l.foldl (fun m x => max m (f x)) m ≤ n ↔ m ≤ n ∧ ∀ x ∈ l, f x ≤ n := by
  induction l generalizing m with
  | nil => simp
  | cons a rest ih => simp [ih, and_assoc]

section
variable {s : State} {i : SlotNo} {c : Chart} {r : Receiver}

theorem bestCode_le_iff {j n : Nat} : bestCode s i j ≤ n ↔ ∀ x ∈ presentPeers s, peerCode s i x j ≤ n := by
  simp [bestCode, foldl_max_le_iff]

theorem mem_bestPeers {j : Nat} : r ∈ bestPeers s i j ↔
    r ∈ presentPeers s ∧ ∀ x ∈ presentPeers s, peerCode s i x j ≤ peerCode s i r j := by
  rw [bestPeers, List.mem_filter, beq_iff_eq, ← bestCode_le_iff]
  exact and_congr_right fun hr => ⟨Eq.ge, fun h => Nat.le_antisymm (bestCode_le_iff.mp le_rfl r hr) h⟩

theorem mem_broadcastPeers : r ∈ broadcastPeers s ↔
    r ≠ s.ssv.own ∧ ∃ p, s.ssv.peers[stationOf r] = some p ∧ p.roster = some (.receiver, s.ssv.boot.tag) := by
  rw [broadcastPeers, List.mem_filter, mem_presentPeers]
  cases s.ssv.peers[stationOf r] <;> simp

/-- The places of a block whose lines a present peer holds better (R126, R127). -/
def placesByView (s : State) (i : SlotNo) (c : Chart) (b : Nat) : List Nat :=
  (wantedPlaces s i c b).filter (fun n => wantedByView s i c (32 * b + n))

theorem mem_placesByView {b n : Nat} : n ∈ placesByView s i c b ↔
    n < 32 ∧ wanted s i c (32 * b + n) = true ∧
      ∃ x, (x ≠ s.ssv.own ∧ s.ssv.peers[stationOf x] ≠ none) ∧ ownCode c (32 * b + n) + 2 ≤ peerCode s i x (32 * b + n) := by
  simp only [placesByView, wantedPlaces, List.mem_filter, List.mem_range, wantedByView_iff, and_assoc]

theorem blockAddress_eq (b : Nat) : blockAddress s i c b = addressMask (
    if placesByView s i c b = [] then broadcastPeers s
    else (placesByView s i c b).flatMap (fun n => bestPeers s i (32 * b + n))) := by
  rw [apply_ite addressMask]
  rfl

end

/-- Settles O49. A line is wanted by R126's conditions, and the WANT goes to the best peers of the lines a peer holds better; to all receivers of own tag when there is no such line. -/
theorem wantedLinesAndStations : Obligations.WantedLinesAndStations := by
  refine ⟨fun s i c j => ?_, fun s i c b r => ?_⟩
  · rw [wanted, Bool.and_eq_true, askable_eq_true_iff, Bool.or_eq_true, wantedByView_iff, Bool.and_eq_true, beq_iff_eq,
      Option.isNone_iff_eq_none, and_assoc, and_assoc]
    refine and_congr ?_ Iff.rfl
    cases hs : c.state with
    | live => exact horizon_live hs
    | sweep =>
      have hsweep := horizon_sweep (j := j) hs
      rw [Chart.length_eq] at hsweep
      exact hsweep
    | held => simp [horizon_held hs]
  · intro present asked
    have hasked (n : Nat) : n ∈ placesByView s i c b ↔ asked n := mem_placesByView
    have hpresent (x : Receiver) : x ∈ presentPeers s ↔ present x := mem_presentPeers
    refine ⟨fun ⟨n, hn⟩ => ?_, fun hnone => ?_, fun n hn => ?_⟩
    · have hplaces : placesByView s i c b ≠ [] := List.ne_nil_of_mem ((hasked n).mpr hn)
      rw [blockAddress_eq, if_neg hplaces, getLsbD_addressMask]
      simp only [List.mem_flatMap, hasked, mem_bestPeers, hpresent]
      exact ⟨fun ⟨n, hn, hr, hbest⟩ => ⟨hr, n, hn, hbest⟩, fun ⟨hr, n, hn, hbest⟩ => ⟨n, hn, hr, hbest⟩⟩
    · have hplaces : placesByView s i c b = [] := List.eq_nil_iff_forall_not_mem.mpr fun n => (hasked n).not.mpr (hnone n)
      rw [blockAddress_eq, if_pos hplaces, getLsbD_addressMask, mem_broadcastPeers]
    · rw [blockAddress_eq, getLsbD_addressMask_viewer _ hn]

/-! ## The boot read (R171) -/

/-- A state with the pins and steps of the boot read replaced. -/
def withBootRead (bus : BootBus) (steps : List BusStep) (s : State) : State :=
  { s with ssv := { s.ssv with bootBus := bus, bootSteps := steps } }

/-- A step of the boot read moves the read alone (R171). -/
theorem bootStep_withBootRead (bus : BootBus) (steps : List BusStep) (s : State) :
    withBootRead bus steps (bootStep s) = withBootRead bus steps s := by
  unfold bootStep freeBootBus
  split
  · rfl
  · split
    · rfl
    · split
      · rfl
      · dsimp only
        split <;> rfl

theorem takeBootSteps_withBootRead (bus : BootBus) (steps : List BusStep) (n : Nat) (s : State) :
    withBootRead bus steps (takeBootSteps n s) = withBootRead bus steps s := by
  induction n generalizing s with
  | zero => rfl
  | succ n ih => exact (ih _).trans (bootStep_withBootRead bus steps s)

/-- The steps still left and the release of the bus, as they leave the part (R171). -/
theorem freeBootBus_takeBootSteps (n : Nat) (s : State) :
    freeBootBus (takeBootSteps n s) = withBootRead .freed (takeBootSteps n s).ssv.bootSteps s :=
  takeBootSteps_withBootRead .freed _ n s

/-! ## The boot record judged (R172) -/

section
variable {steps : List BusStep}

theorem judge_noAnswer (h : (takenBytes steps).length ≠ 24) :
    judgeBootRecord (bootOutcome steps) = (.defaults, .defaults, 0) := by
  simp only [bootOutcome, if_neg h, judgeBootRecord]

theorem judge_foreign (h : (takenBytes steps).length = 24) (hversion : (takenBytes steps).getD 0 0 ≠ 0xA3) :
    judgeBootRecord (bootOutcome steps) = (.defaults, .defaults, (takenBytes steps).getD 0 0) := by
  simp only [bootOutcome, if_pos h, judgeBootRecord, if_pos hversion]

theorem judge_record (h : (takenBytes steps).length = 24) (hversion : (takenBytes steps).getD 0 0 = 0xA3) :
    judgeBootRecord (bootOutcome steps) = ((bootFields (takenBytes steps)).1,
      if (bootFields (takenBytes steps)).2 then .clamped else .asRead, 0xA3) := by
  simp only [bootOutcome, if_pos h, judgeBootRecord, hversion, ne_eq, not_true, if_false]

end

/-! ## The fields of a record (R173, R182) -/

theorem be16_toNat (hi lo : Byte) : (be16 hi lo).toNat = hi.toNat * 256 + lo.toNat := by
  rw [be16, BitVec.toNat_append, ← Nat.shiftLeft_add_eq_or_of_lt lo.isLt, Nat.shiftLeft_eq]

theorem bootNumber_unaltered {lo hi n : Nat} : (bootNumber lo hi n).2 = false ↔ max lo (min hi n) = n := bne_eq_false_iff_eq

theorem bootNumber_unaltered_iff_mem {lo hi n : Nat} (h : lo ≤ hi) : (bootNumber lo hi n).2 = false ↔ lo ≤ n ∧ n ≤ hi := by
  rw [bootNumber_unaltered]
  omega

/-- A value of the table other than the default is taken at its own number alone (R173). -/
theorem bootChoice_eq_iff {α : Type} {table : List α} {dflt a : α} {n : Nat} (hn : table[n]? = some a)
    (hnodup : table.Nodup) (hdflt : dflt ≠ a) (b : Byte) : (bootChoice table dflt b).1 = a ↔ b.toNat = n := by
  unfold bootChoice
  refine ⟨fun h => ?_, fun h => by simp only [h, hn]⟩
  cases hb : table[b.toNat]? with
  | none => exact absurd (by simpa only [hb] using h) hdflt
  | some x =>
    obtain rfl : x = a := by simpa only [hb] using h
    exact (List.getElem?_inj (List.getElem?_eq_some_iff.mp hb).1 hnodup).mp (hb.trans hn.symm)

theorem bootChoice_unaltered {α : Type} {table : List α} {dflt : α} {b : Byte} :
    (bootChoice table dflt b).2 = false ↔ b.toNat < table.length := by
  unfold bootChoice
  cases h : table[b.toNat]? with
  | none => simpa using h
  | some a => simpa using (List.getElem?_eq_some_iff.mp h).1

theorem pairRule_eq (start stop : Nat) : pairRule start stop =
    if start < stop + 100 ∧ stop < start + 100 then ((300, 450), true) else ((start, stop), false) :=
  if_congr (by omega) rfl rfl

theorem pairRule_unaltered {start stop : Nat} :
    (pairRule start stop).2 = false ↔ ¬ (start < stop + 100 ∧ stop < start + 100) := by
  rw [pairRule_eq]
  split <;> simp_all

/-- The rates of a record, each clamped, both at their defaults when they lie close together (R173). -/
theorem bootFields_rates (b : List Byte) : ((bootFields b).1.startRate, (bootFields b).1.stopRate) =
    (pairRule (max 100 (min 800 ((b.getD 2 0).toNat * 256 + (b.getD 3 0).toNat)))
      (max 100 (min 800 ((b.getD 4 0).toNat * 256 + (b.getD 5 0).toNat)))).1 := by
  simp only [← be16_toNat]
  rfl

/-- Nothing was altered: each number within its range, each enumeration in its table, the clamped rates apart (R173). -/
theorem bootFields_unaltered (b : List Byte) :
    let num := fun i : Nat => (b.getD i 0).toNat
    let start := max 100 (min 800 (num 2 * 256 + num 3))
    let stop := max 100 (min 800 (num 4 * 256 + num 5))
    (bootFields b).2 = false ↔
      1 ≤ num 1 ∧ num 1 ≤ 15 ∧ start = num 2 * 256 + num 3 ∧ stop = num 4 * 256 + num 5 ∧
      ¬ (start < stop + 100 ∧ stop < start + 100) ∧ 1 ≤ num 6 ∧ num 6 ≤ 20 ∧ num 7 ≤ 100 ∧ 2 ≤ num 8 ∧ num 8 ≤ 15 ∧
      num 10 ≤ 1 ∧ num 11 ≤ 63 ∧ 10 ≤ num 12 ∧ num 13 ≤ 2 ∧ num 14 ≤ 2 ∧ num 15 ≤ 1 := by
  intro num start stop
  have hrate (i : Nat) : (bootNumber 100 800 (be16 (b.getD i 0) (b.getD (i + 1) 0)).toNat).2 = false ↔
      max 100 (min 800 (num i * 256 + num (i + 1))) = num i * 256 + num (i + 1) := by
    rw [be16_toNat, bootNumber_unaltered]
  have hpair : (pairRule (bootNumber 100 800 (be16 (b.getD 2 0) (b.getD 3 0)).toNat).1
      (bootNumber 100 800 (be16 (b.getD 4 0) (b.getD 5 0)).toNat).1).2 = false ↔
      ¬ (start < stop + 100 ∧ stop < start + 100) := by
    rw [pairRule_unaltered, be16_toNat, be16_toNat]
    rfl
  have hbyte : num 12 ≤ 255 := Nat.le_of_lt_succ (b.getD 12 0).isLt
  simp only [bootFields, Bool.or_eq_false_iff, bootNumber_unaltered_iff_mem, hrate, bootChoice_unaltered, hpair,
    Nat.reduceLeDiff, Nat.zero_le, true_and, and_assoc]
  constructor
  · rintro ⟨htag, htag', hstart, hstop, hmargin, hmargin', hfloor, hwant, hwant', hend, hthreshold, hseconds, -, hfade,
      hclip, htuning, hapart⟩
    exact ⟨htag, htag', hstart, hstop, hapart, hmargin, hmargin', hfloor, hwant, hwant', Nat.le_of_lt_succ hend,
      hthreshold, hseconds, Nat.le_of_lt_succ hfade, Nat.le_of_lt_succ hclip, Nat.le_of_lt_succ htuning⟩
  · rintro ⟨htag, htag', hstart, hstop, hapart, hmargin, hmargin', hfloor, hwant, hwant', hend, hthreshold, hseconds,
      hfade, hclip, htuning⟩
    exact ⟨htag, htag', hstart, hstop, hmargin, hmargin', hfloor, hwant, hwant', Nat.lt_succ_of_le hend, hthreshold,
      hseconds, hbyte, Nat.lt_succ_of_le hfade, Nat.lt_succ_of_le hclip, Nat.lt_succ_of_le htuning, hapart⟩

/-! ## The end of boot (R122, R160, R169, R177) -/

theorem exec_endOfBoot_elsewhere {s : State} (h : s.phase ≠ .boot) (n : Nat) : exec (.endOfBoot n) s = .next s :=
  congrArg Host.Outcome.next (if_neg h)

theorem exec_endOfBoot {s : State} (h : s.phase = .boot) (n : Nat) : exec (.endOfBoot n) s =
    .next (finishBoot (withBootRead .freed (takeBootSteps n s).ssv.bootSteps s)) :=
  congrArg Host.Outcome.next ((if_pos h).trans (congrArg finishBoot (freeBootBus_takeBootSteps n s)))

theorem finishBoot_judged {s : State} {boot : BootFields} {status : ConfigStatus} {version : Byte}
    (h : judgeBootRecord (bootOutcome s.ssv.bootSteps) = (boot, status, version)) :
    (finishBoot s).ssv.version = version ∧ (finishBoot s).ssv.boot = boot ∧ (finishBoot s).ssv.status = status :=
  ⟨congrArg (·.2.2) h, congrArg Prod.fst h, congrArg (·.2.1) h⟩

/-- Settles O6: the state is that before it with the read ended, its record judged; the fields of a record one by one. -/
theorem endOfBootStartsThePart : Obligations.EndOfBootStartsThePart := by
  refine ⟨fun s n => ⟨fun h => exec_endOfBoot_elsewhere h n, fun h => ?_⟩, ?_⟩
  · refine ⟨_, exec_endOfBoot h n, rfl, rfl, rfl, rfl, rfl, rfl, rfl, rfl, rfl, rfl, rfl, rfl, rfl, rfl, rfl, ?_⟩
    exact ⟨fun hlen => finishBoot_judged (judge_noAnswer hlen),
      fun hlen hversion => finishBoot_judged (judge_foreign hlen hversion),
      fun hlen hversion => finishBoot_judged (judge_record hlen hversion)⟩
  · intro b num f start stop close
    have hrates := bootFields_rates b
    rw [pairRule_eq] at hrates
    refine ⟨rfl, fun hclose => ?_, fun hapart => ?_, rfl, Nat.zero_max .., rfl, rfl, ?keep, Nat.zero_max .., ?fadeSeconds,
      ?fadeNone, ?fadeReport, ?clipNone, ?clipReport, ?tuningOff, be16_toNat _ _, bootFields_unaltered b⟩
    · rw [if_pos hclose] at hrates
      exact Prod.mk.inj hrates
    · rw [if_neg hapart] at hrates
      exact Prod.mk.inj hrates
    case fadeSeconds =>
      have hbyte : num 12 < 256 := (b.getD 12 0).isLt
      show max 10 (min 255 (num 12)) = max 10 (num 12)
      omega
    case keep | fadeNone | fadeReport | clipNone | clipReport | tuningOff =>
      exact bootChoice_eq_iff rfl (by decide) (by decide) _

end Sys2Proof.Machine

/-! Proofs for chapter 8, the transfer of lines: the builder's attempts, and the fragments heard before a line is whole. -/

namespace Sys2Proof.Machine

/-! ## An attempt to build (R104, R142, R143, R145) -/

section
variable {s : State} {l : BuildLine} {rest : List BuildLine}

/-- What the queue takes does not depend on the build list. -/
theorem enqueueGroup_setBuild (es : List Entry) (b : List BuildLine) (s : State) :
    enqueueGroup es (setBuild b s) = (setBuild b (enqueueGroup es s).1, (enqueueGroup es s).2) := by
  unfold enqueueGroup
  exact (apply_ite (fun g : State × Bool => (setBuild b g.1, g.2)) _ (setQueue (s.slc.queue ++ es) s, true) (s, false)).symm

/-- A line whose copy is not held leaves the list (notes/assumptions/35.md). -/
theorem buildLines_unheld (hcopy : heldCopy s l.key l.index = none) : buildLines (l :: rest) s = buildLines rest s := by
  simp only [buildLines, hcopy]

/-- The head's copy is offered as one group: taken, the next line is tried; refused, the list waits (R104, R143). -/
theorem buildLines_held {e : LineEntry} {pixels : Pixels} (hcopy : heldCopy s l.key l.index = some (e, pixels)) :
    let g := enqueueGroup ((lineFragments l.key l.index e pixels).map (fun p => newEntry p .xen)) s
    buildLines (l :: rest) s = if g.2 then buildLines rest g.1 else setBuild (l :: rest) s := by
  simp only [buildLines, hcopy]

/-- What is built depends on the lines given, and not on the build list that stands meanwhile. -/
theorem buildLines_setBuild (lines b : List BuildLine) (s : State) :
    buildLines lines (setBuild b s) = buildLines lines s := by
  induction lines generalizing s with
  | nil => rfl
  | cons l rest ih =>
    cases hcopy : heldCopy s l.key l.index with
    | none => rw [buildLines_unheld hcopy, buildLines_unheld (s := setBuild b s) hcopy, ih]
    | some copy =>
      rw [buildLines_held hcopy, buildLines_held (s := setBuild b s) hcopy, enqueueGroup_setBuild, ih]
      rfl

theorem tryBuild_setBuild (b : List BuildLine) (s : State) : tryBuild (setBuild b s) = buildLines b s :=
  buildLines_setBuild b b s

theorem tryBuild_of_build {b : List BuildLine} (h : s.xen.build = b) : tryBuild s = buildLines b s :=
  congrArg (buildLines · s) h

theorem setBuild_of_build {b : List BuildLine} (h : s.xen.build = b) : setBuild b s = s := by
  subst h
  rfl

theorem tryBuild_nil (h : s.xen.build = []) : tryBuild s = s :=
  (tryBuild_of_build h).trans (setBuild_of_build h)

theorem tryBuild_unheld (h : s.xen.build = l :: rest) (hcopy : heldCopy s l.key l.index = none) :
    tryBuild s = tryBuild (setBuild rest s) := by
  rw [tryBuild_of_build h, buildLines_unheld hcopy, tryBuild_setBuild]

theorem tryBuild_held {e : LineEntry} {pixels : Pixels} (h : s.xen.build = l :: rest)
    (hcopy : heldCopy s l.key l.index = some (e, pixels)) :
    let g := enqueueGroup ((lineFragments l.key l.index e pixels).map (fun p => newEntry p .xen)) s
    tryBuild s = if g.2 then tryBuild (setBuild rest g.1) else s := by
  dsimp only
  rw [tryBuild_of_build h, buildLines_held hcopy, tryBuild_setBuild, setBuild_of_build h]

theorem heldCopy_eq_bind (s : State) (k : Key) (j : Nat) : heldCopy s k j =
    (slotOf s k).bind fun i => (recordAt s i).bind fun c => (mapGet c.lineMap j).map fun e =>
      (e, Memory.read s.cst.pages e.page) := by
  unfold heldCopy
  cases slotOf s k with
  | none => rfl
  | some i =>
    cases hc : recordAt s i with
    | none => simp [hc]
    | some c => cases hm : mapGet c.lineMap j <;> simp [hc, hm]

theorem heldCopy_eq_some_iff {k : Key} {j : Nat} {e : LineEntry} {pixels : Pixels} :
    heldCopy s k j = some (e, pixels) ↔ ∃ i c, slotOf s k = some i ∧ recordAt s i = some c ∧
      mapGet c.lineMap j = some e ∧ pixels = Memory.read s.cst.pages e.page := by
  rw [heldCopy_eq_bind]
  simp only [Option.bind_eq_some_iff, Option.map_eq_some_iff, Prod.mk.injEq]
  constructor
  · rintro ⟨i, hi, c, hc, e, he, rfl, rfl⟩
    exact ⟨i, c, hi, hc, he, rfl⟩
  · rintro ⟨i, c, hi, hc, he, rfl⟩
    exact ⟨i, hi, c, hc, e, he, rfl, rfl⟩

variable {before : State}

theorem retryBuild_due (h : s.slc.queue.length < before.slc.queue.length ∨ s.xen.build.head? ≠ before.xen.build.head?) :
    retryBuild before s = tryBuild s := if_pos h

theorem retryBuild_idle (hqueue : before.slc.queue.length ≤ s.slc.queue.length)
    (hhead : s.xen.build.head? = before.xen.build.head?) : retryBuild before s = s :=
  if_neg (not_or.mpr ⟨Nat.not_lt.mpr hqueue, not_not.mpr hhead⟩)

end

/-- Settles O25: the head of the list case by case, then what an act brings. -/
theorem buildAttempts : Obligations.BuildAttempts := by
  refine ⟨?_, fun s k j e pixels => heldCopy_eq_some_iff, fun before s => ⟨retryBuild_due, retryBuild_idle⟩,
    fun s sel r => rfl⟩
  intro s without
  refine ⟨tryBuild_nil, fun l rest hbuild => ⟨tryBuild_unheld hbuild, ?_⟩⟩
  intro e pixels hcopy group taken
  have hheld : tryBuild s = if (enqueueGroup group s).2 then tryBuild (without rest (enqueueGroup group s).1) else s :=
    tryBuild_held hbuild hcopy
  refine ⟨fun htaken => ?_, fun hrefused => ?_⟩
  · rw [hheld, if_pos htaken, enqueueGroup_taken htaken]
    rfl
  · rw [hheld, hrefused]
    rfl

/-! ## Which LINE fragments are judged (R150) -/

section
variable {s : State} {sender : Station} {stamp : Nat} {k : Key} {index : BitVec 16} {count fragment : BitVec 4} {q : Byte}
  {u : BitVec 16} {runs : List Byte}

theorem judgeLine_viewer (h : 8 ≤ sender.val) : judgeLine sender stamp k index count fragment q u runs s = s := by
  simp only [judgeLine, receiverOf_viewer h]

theorem judgeLine_malformed (h8 : sender.val < 8)
    (h : count.toNat = 0 ∨ 5 < count.toNat ∨ count.toNat ≤ fragment.toNat ∨ 2047 < index.toNat) :
    judgeLine sender stamp k index count fragment q u runs s = bump 5 1 s := by
  obtain ⟨r, rfl⟩ := exists_receiver_of_lt h8
  simp only [judgeLine, receiverOf_stationOf]
  exact if_pos (h.imp_left Nat.lt_one_iff.mpr)

theorem judgeLine_unreached (h8 : sender.val < 8)
    (h : ¬ (count.toNat = 0 ∨ 5 < count.toNat ∨ count.toNat ≤ fragment.toNat ∨ 2047 < index.toNat))
    (hslot : slotOf s k = none) : judgeLine sender stamp k index count fragment q u runs s = s := by
  obtain ⟨r, rfl⟩ := exists_receiver_of_lt h8
  simp only [judgeLine, receiverOf_stationOf, hslot]
  exact if_neg (mt (Or.imp_left Nat.lt_one_iff.mp) h)

end

/-! ## A reception begun or restarted (R151) -/

/-- The oldest reception is the first with the least start. -/
theorem oldestAssembly_eq_bind (as : List Assembly) :
    oldestAssembly as = (as.map (·.start)).min?.bind fun m => as.findIdx? (·.start == m) := by
  cases as <;> rfl

theorem oldestAssembly_eq_some {as : List Assembly} {n : Nat} {old : Assembly} (hold : as[n]? = some old)
    (hleast : ∀ a ∈ as, old.start ≤ a.start) (hfirst : ∀ m a, m < n → as[m]? = some a → old.start < a.start) :
    oldestAssembly as = some n := by
  obtain ⟨hn, hget⟩ := List.getElem?_eq_some_iff.mp hold
  have hmin : (as.map (·.start)).min? = some old.start := by
    rw [List.min?_eq_some_iff]
    exact ⟨List.mem_map_of_mem (List.mem_of_getElem? hold), List.forall_mem_map.mpr hleast⟩
  rw [oldestAssembly_eq_bind, hmin, Option.bind_some, List.findIdx?_eq_some_iff_getElem]
  refine ⟨hn, by simp [hget], fun m hm => ?_⟩
  have hyounger := hfirst m as[m] hm (List.getElem?_eq_getElem _)
  simpa using hyounger.ne'

section
variable {s : State} {i : SlotNo} {a : Assembly}

theorem firstFragment_restarts (hcount : 2 ≤ a.count)
    (hunder : s.xen.assemblies.any (·.isOf a.sender a.key a.index) = true) : firstFragment i a s =
      setAssemblies (s.xen.assemblies.map (fun x => if x.isOf a.sender a.key a.index then a else x)) s :=
  (if_neg (by omega)).trans (if_pos hunder)

theorem firstFragment_adds (hcount : 2 ≤ a.count)
    (hnone : s.xen.assemblies.any (·.isOf a.sender a.key a.index) = false) : firstFragment i a s = addAssembly a s :=
  (if_neg (by omega)).trans (if_neg (by simp [hnone]))

theorem addAssembly_roomy (h : s.xen.assemblies.length < 6) :
    addAssembly a s = setAssemblies (s.xen.assemblies ++ [a]) s := if_pos h

theorem addAssembly_full {n : Nat} (h : s.xen.assemblies.length = 6) (hold : oldestAssembly s.xen.assemblies = some n) :
    addAssembly a s = setAssemblies (s.xen.assemblies.eraseIdx n ++ [a]) (bump 5 1 s) := by
  simp only [addAssembly, h, hold]
  rfl

end

/-! ## A reception grown or ended (R152) -/

section
variable {s : State} {i : SlotNo} {f a : Assembly} {n : Nat}

theorem laterFragment_stray (h : s.xen.assemblies.find? (·.isOf f.sender f.key f.index) = none) :
    laterFragment i f n s = bump 5 1 s := by
  simp only [laterFragment, h]
  rfl

theorem laterFragment_grows (h : s.xen.assemblies.find? (·.isOf f.sender f.key f.index) = some a)
    (hnext : n = a.next) (hcount : f.count = a.count) (hq : f.q = a.q) (hu : f.u = a.u) (hmore : a.next + 1 < a.count) :
    laterFragment i f n s = setAssemblies (s.xen.assemblies.map (fun x =>
      if x.isOf f.sender f.key f.index then { x with next := a.next + 1, bytes := a.bytes ++ f.bytes } else x)) s := by
  simp only [laterFragment, h, hnext, hcount, hq, hu, and_self, if_true, if_neg hmore.ne]

theorem laterFragment_ends (h : s.xen.assemblies.find? (·.isOf f.sender f.key f.index) = some a)
    (hdiffers : ¬ (n = a.next ∧ f.count = a.count ∧ f.q = a.q ∧ f.u = a.u)) :
    laterFragment i f n s = bump 5 1 (dropAssembly f.sender f.key f.index s) := by
  simp only [laterFragment, h, if_neg hdiffers]
  rfl

end

/-- Settles O42: the fragment is judged on what its hearing leaves, where keys and receptions are as before. -/
theorem lineFragmentsJudged : Obligations.LineFragmentsJudged := by
  constructor
  · intro s t sender k index count fragment q u runs hh h1 h240 p b bad
    have hslot : slotOf b k = slotOf s k := slotOf_heardBy t p k
    rw [exec_lineHeard hh t k index count fragment q u h1 h240]
    exact ⟨fun h8 => congrArg _ (judgeLine_viewer h8), fun h8 hbad => congrArg _ (judgeLine_malformed h8 hbad),
      fun h8 hgood hnone => congrArg _ (judgeLine_unreached h8 hgood (hslot.trans hnone))⟩
  · intro s t r k index count fragment q u runs i hh h1 h240 hcount h5 hindex hsome p b run whose first
    have hslot : slotOf b k = some i := (slotOf_heardBy t p k).trans hsome
    have hxen : b.xen = s.xen := heardBy_xen t (stationOf r) p
    have hexec : run = .next (judgeLine (stationOf r) (stampAt t s) k index count fragment q u runs b) :=
      exec_lineHeard hh t k index count fragment q u h1 h240
    have hfirst {v : State} (h0 : fragment = 0) (hv : firstFragment i first b = v) : run = .next v :=
      hexec.trans (congrArg _ ((judgeLine_first hslot hindex (by omega) h5 (congrArg BitVec.toNat h0)).trans hv))
    have hlater {v : State} (h0 : fragment ≠ 0) (hv : laterFragment i first fragment.toNat b = v) : run = .next v := by
      have h1 : 1 ≤ fragment.toNat := Nat.one_le_iff_ne_zero.mpr (BitVec.toNat_ne.mp h0)
      exact hexec.trans (congrArg _ ((judgeLine_later hslot hindex h1 hcount h5).trans hv))
    rw [← hxen]
    refine ⟨fun h0 h2 hunder => hfirst h0 (firstFragment_restarts h2 hunder),
      fun h0 h2 hnone hroom => hfirst h0 ((firstFragment_adds h2 hnone).trans (addAssembly_roomy hroom)),
      fun n old h0 h2 hnone hfull hold hleast hyounger => ?_,
      fun h0 hnone => hlater h0 (laterFragment_stray hnone), fun a h0 hfind => ⟨?_, ?_⟩⟩
    · have holdest := oldestAssembly_eq_some hold hleast hyounger
      exact hfirst h0 ((firstFragment_adds h2 hnone).trans (addAssembly_full hfull holdest))
    · exact fun hnext hc hq hu hmore => hlater h0 (laterFragment_grows hfind hnext hc hq hu hmore)
    · exact fun hdiffers => hlater h0 (laterFragment_ends hfind hdiffers)

end Sys2Proof.Machine

/-! Proofs for chapters 9 and 10: rosters heard and sent, the descriptor an ASK brings, and the REPORT of the minute. -/

namespace Sys2Proof.Machine

/-! ## A ROSTER heard (R157, R181) -/

section
variable {s : State} {sender : Station} {kind tag : Byte} {k : StationKind}

theorem kindOfByte_eq_receiver : kindOfByte kind = some .receiver ↔ kind = 1 := by
  unfold kindOfByte
  split
  · exact iff_of_true rfl ‹_›
  · exact iff_of_false (by split <;> simp) ‹_›

theorem kindOfByte_eq_viewer : kindOfByte kind = some .viewer ↔ kind = 2 := by
  unfold kindOfByte
  split
  · next h => subst h; decide
  · split
    · exact iff_of_true rfl ‹_›
    · exact iff_of_false nofun ‹_›

theorem rosterFits_receiver {n : Nat} : rosterFits sender .receiver n = true ↔ sender.val < 8 ∧ 1 ≤ n ∧ n ≤ 15 := by
  simp [rosterFits, and_assoc]

theorem rosterFits_viewer {n : Nat} : rosterFits sender .viewer n = true ↔ 8 ≤ sender.val ∧ n ≤ 15 := by
  simp [rosterFits]

theorem judgeRoster_fits {p : Peer} (hkind : kindOfByte kind = some k) (hfits : rosterFits sender k tag.toNat = true)
    (hp : s.ssv.peers[sender] = some p) :
    judgeRoster sender kind tag s = setPeer sender (some { p with roster := some (k, tag.toNat) }) s := by
  simp only [judgeRoster, hkind, hfits, if_true, hp]

theorem judgeRoster_misfits (h : ∀ k, kindOfByte kind = some k → rosterFits sender k tag.toNat = false) :
    judgeRoster sender kind tag s = bump 5 1 s := by
  unfold judgeRoster
  cases hkind : kindOfByte kind with
  | none => rfl
  | some k => exact if_neg (by simp [h k hkind])

/-- A frame heard leaves its sender present (R156). -/
theorem peer_heardBy (h : s.phase = .running) (t : Nat) (p : Payload) : (heardBy t sender p s).ssv.peers[sender] =
    some ⟨stampAt t s, (s.ssv.peers[sender]).bind (·.roster)⟩ := by
  simp [ssv_heardBy h]

theorem setPeer_heardBy (h : s.phase = .running) (t : Nat) (p : Payload) (x : Option Peer) :
    let b := heardBy t sender p s
    setPeer sender x b = { b with ssv := { b.ssv with peers := s.ssv.peers.set sender x } } := by
  simp [setPeer, ssv_heardBy h]

theorem judgeRoster_heardBy (h : s.phase = .running) (t : Nat) (p : Payload) (hkind : kindOfByte kind = some k)
    (hfits : rosterFits sender k tag.toNat = true) :
    let b := heardBy t sender p s
    judgeRoster sender kind tag b = { b with ssv := { b.ssv with
      peers := s.ssv.peers.set sender (some ⟨stampAt t s, some (k, tag.toNat)⟩) } } :=
  (judgeRoster_fits hkind hfits (peer_heardBy h t p)).trans (setPeer_heardBy h t p _)

end

/-! ## An ASK heard (R162 to R164) -/

/-- Two nibbles make a byte. -/
theorem ofNat_append_ofNat (a : Nat) {b : Nat} (hb : b < 16) :
    (BitVec.ofNat 4 a ++ BitVec.ofNat 4 b : Byte) = BitVec.ofNat 8 (16 * a + b) := by
  apply BitVec.eq_of_toNat_eq
  rw [BitVec.toNat_append, BitVec.toNat_ofNat, BitVec.toNat_ofNat, BitVec.toNat_ofNat,
    ← Nat.shiftLeft_add_eq_or_of_lt (Nat.mod_lt _ (by decide)), Nat.shiftLeft_eq]
  omega

theorem stateByte_eq (c : Chart) : stateByte c = BitVec.ofNat 8 (16 * chartStateCode c.state +
    (match c.closeReason with | some r => reasonCode r | none => 0)) := by
  unfold stateByte
  cases c.closeReason with
  | none => exact ofNat_append_ofNat _ (by decide)
  | some r => exact ofNat_append_ofNat _ (by cases r <;> decide)

section
variable {s : State}

theorem holders_eq (s : State) (i : SlotNo) : holders s i =
    1 + ([0, 1, 2, 3, 4, 5, 6, 7].filter (fun r : Receiver =>
      r != s.ssv.own && ((s.xen.views[i])[r]).any (fun e => e.2 != 0))).length := by
  simp only [holders, otherReceivers, allReceivers, List.countP_eq_length_filter, List.filter_filter, Bool.and_comm]

theorem chartList_congr {u : State} (h : ∀ i, (recordAt u i).isSome = (recordAt s i).isSome) : chartList u = chartList s := by
  simp only [chartList, h]

theorem chartList_heardBy (h : s.phase = .running) (t : Nat) (sender : Station) (p : Payload) :
    chartList (heardBy t sender p s) = chartList s :=
  chartList_congr fun i => by rw [recordAt_heardBy h, Option.isSome_map]

variable {sender : Station} {target k : Byte}

theorem judgeAsk_elsewhere (h : target.toNat ≠ s.ssv.own.val) : judgeAsk sender target k s = s := if_pos h

theorem judgeAsk_past (h : target.toNat = s.ssv.own.val) (hk : (chartList s).length ≤ k.toNat) :
    judgeAsk sender target k s = (enqueue (newEntry
      (.describeNullF (BitVec.ofNat 8 sender.val) k (BitVec.ofNat 8 (chartList s).length)) .ssv) s).1 := by
  simp only [judgeAsk, h, List.getElem?_eq_none hk, ne_eq, not_true_eq_false, if_false]

theorem judgeAsk_described {i : SlotNo} {c : Chart} (h : target.toNat = s.ssv.own.val) (hk : (chartList s)[k.toNat]? = some i)
    (hc : recordAt s i = some c) : judgeAsk sender target k s =
      (enqueue (newEntry (.describeF (BitVec.ofNat 8 sender.val) k (descriptorOf s i c)) .ssv)
        (setChart i (some { c with used := true }) s)).1 := by
  simp only [judgeAsk, h, hk, hc, updateChart_eq hc, ne_eq, not_true_eq_false, if_false]

end

/-- Settles O45: kind and tag of a ROSTER against its sender; an ASK against the slots in use. -/
theorem rosterAndAskServed : Obligations.RosterAndAskServed := by
  constructor
  · intro s t sender kind tag a b c d e f hh p h run
    have hexec : run = .next (judgeRoster sender kind tag h) := exec_heard_sized (p := p) hh t rfl
    have hentered {k : StationKind} (hkind : kindOfByte kind = some k) (hfits : rosterFits sender k tag.toNat = true) :=
      hexec.trans (congrArg _ (judgeRoster_heardBy hh.1 t p hkind hfits))
    refine ⟨fun hkind h8 h1 h15 => hentered (kindOfByte_eq_receiver.mpr hkind) (rosterFits_receiver.mpr ⟨h8, h1, h15⟩),
      fun hkind h8 h15 => hentered (kindOfByte_eq_viewer.mpr hkind) (rosterFits_viewer.mpr ⟨h8, h15⟩),
      fun hreceiver hviewer => hexec.trans (congrArg _ (judgeRoster_misfits fun k hkind => ?_))⟩
    rw [Bool.eq_false_iff]
    cases k with
    | receiver => exact fun hfits => hreceiver ⟨kindOfByte_eq_receiver.mp hkind, rosterFits_receiver.mp hfits⟩
    | viewer => exact fun hfits => hviewer ⟨kindOfByte_eq_viewer.mp hkind, rosterFits_viewer.mp hfits⟩
  · intro s t sender target k hh p b charts requester
    have hexec : exec (.askHeard t sender (frameTail sender p)) s = .next (judgeAsk sender target k b) :=
      exec_heard_sized (p := p) hh t rfl
    have hown : b.ssv.own = s.ssv.own := heardBy_own t sender p
    have hcharts : chartList b = charts := chartList_heardBy hh.1 t sender p
    rw [hexec, ← hown, ← hcharts]
    refine ⟨fun hother => congrArg _ (judgeAsk_elsewhere hother), fun hmine hk => congrArg _ (judgeAsk_past hmine hk),
      fun i c hmine hk hc => ?_⟩
    intro length known chart
    have hlength : c.length = length := c.length_eq
    have hholders : holders b i = 1 + known.length := by rw [holders_eq, heardBy_xen]
    have hdescriptor : descriptorOf b i c = chart := by
      simp only [descriptorOf, stateByte_eq, hlength, hholders, b, heardBy_now hh.1]
      rfl
    rw [judgeAsk_described hmine hk hc, hdescriptor]

/-! ## The ROSTER timer and the minute timer (R160, R161, R177) -/

section
variable {s : State} {t : Nat}

theorem exec_rosterExpiry_due (hrun : s.phase = .running) (hdue : s.ssv.rosterDue ≤ stampAt t s) :
    exec (.rosterExpiry t) s = .next (queueRoster { s with
      clock := max s.clock t, ssv := { s.ssv with rosterDue := s.ssv.rosterDue + 60000 } }) := by
  simp only [exec, execRosterExpiry, advance_running _ _ hrun, isDue_advanced hrun hdue, if_true, Config.rosterMs]

theorem exec_minuteExpiry_due (hrun : s.phase = .running) (hdue : s.ssv.minuteDue ≤ stampAt t s) :
    exec (.minuteExpiry t) s = .next (minuteReport { s with
      clock := max s.clock t, ssv := { s.ssv with minuteDue := s.ssv.minuteDue + 60000 } }) := by
  simp only [exec, execMinuteExpiry, advance_running _ _ hrun, isDue_advanced hrun hdue, if_true, Config.minuteMs]

end

/-- Settles O52: each timer put on from the time it was due, then its frame put to the queue. -/
theorem rosterAndReportQueued : Obligations.RosterAndReportQueued := by
  exact ⟨fun _ _ hrun hdue => exec_rosterExpiry_due hrun hdue, fun _ _ hrun hdue => exec_minuteExpiry_due hrun hdue⟩

end Sys2Proof.Machine

/-! Proofs for chapter 10, start-up: the idle step, the boot read on its bus, and the configuration that no command of operation moves. -/

namespace Sys2Proof.Machine

/-! ## Start-up: a step on an empty queue (R169, R171) -/

section
variable {s : State}

theorem step_idle (h : s.pending = []) : step s = .next (idleStep s) := by
  unfold step
  rw [h]

theorem idleStep_inReset (h : s.phase = .inReset) : idleStep s = s := by
  unfold idleStep
  rw [h]

theorem idleStep_boot (h : s.phase = .boot) : idleStep s = bootStep s := by
  unfold idleStep
  rw [h]

theorem idleStep_running (h : s.phase = .running) :
    idleStep s = { s with
      clock := (s.clock / 1000 + 1) * 1000
      pending := dueEvents { s with clock := (s.clock / 1000 + 1) * 1000 } } := by
  unfold idleStep
  rw [h]

end

/-- Settles O2: an empty queue is an idle step, which goes by the phase. -/
theorem idleStepMovesTime : Obligations.IdleStepMovesTime := by
  intro s hempty
  rw [step_idle hempty]
  exact ⟨fun h => congrArg _ (idleStep_inReset h), fun h => congrArg _ (idleStep_boot h),
    fun h => congrArg _ (idleStep_running h)⟩

/-! ## The boot read, step by step (R171) -/

section
variable {s : State} {m : BootMemory}

theorem bootStep_freed (h : s.ssv.bootBus = .freed) : bootStep s = s := by
  unfold bootStep
  rw [h]

theorem bootStep_bmdLow (h : s.ssv.bootBus = .mastering m) (hlow : m.bmdLow = true) : bootStep s = freeBootBus s := by
  unfold bootStep
  rw [h]
  exact if_pos hlow

/-- The device gives no further byte, and the read waits for it. -/
theorem bootStep_waits (h : s.ssv.bootBus = .mastering m) (hhigh : m.bmdLow = false)
    (hnext : nextBusStep m s.ssv.bootSteps.length = none) : bootStep s = s := by
  simp [bootStep, h, hhigh, hnext]

theorem bootStep_takes (h : s.ssv.bootBus = .mastering m) (hhigh : m.bmdLow = false) {x : BusStep}
    (hnext : nextBusStep m s.ssv.bootSteps.length = some x) :
    bootStep s = withBootRead (if readOver (s.ssv.bootSteps ++ [x]) then .freed else .mastering m)
      (s.ssv.bootSteps ++ [x]) s := by
  simp only [bootStep, h, hhigh, hnext, Bool.false_eq_true, if_false]
  split
  · rfl
  · rw [← h]
    rfl

theorem takeBootSteps_succ_last (n : Nat) (s : State) : takeBootSteps (n + 1) s = bootStep (takeBootSteps n s) := by
  induction n generalizing s with
  | zero => rfl
  | succ n ih => exact ih (bootStep s)

/-- The whole course of a read (R171). -/
structure ReadCourse (m : BootMemory) (course : List BusStep) (ends : Prop) : Prop where
  /-- Each step is the next on the bus. -/
  next : ∀ n (h : n < course.length), nextBusStep m n = some course[n]
  /-- No step but the last ends the read, and that one when the course ends it. -/
  finished : ∀ n < course.length, readOver (course.take (n + 1)) = true ↔ ends ∧ course.length ≤ n + 1
  /-- A course that does not end the read goes as far as the device gives bytes. -/
  waits : ¬ ends → nextBusStep m course.length = none

/-- The part when `n` steps of a course have been asked for, and the bus released at its end (R171). -/
def readSoFar (m : BootMemory) (course : List BusStep) (ends : Prop) [Decidable ends] (n : Nat) (s : State) : State :=
  withBootRead (if ends ∧ course.length ≤ n then .freed else .mastering m) (course.take n) s

section
variable {course : List BusStep} {ends : Prop} [Decidable ends]

theorem readSoFar_succ_of_length_le {n : Nat} (h : course.length ≤ n) :
    readSoFar m course ends (n + 1) s = readSoFar m course ends n s := by
  simp only [readSoFar, List.take_of_length_le h, List.take_of_length_le (Nat.le_succ_of_le h), h, Nat.le_succ_of_le h]

theorem ReadCourse.bootStep_readSoFar (hcourse : ReadCourse m course ends) (hhigh : m.bmdLow = false) (n : Nat) (s : State) :
    bootStep (readSoFar m course ends n s) = readSoFar m course ends (n + 1) s := by
  by_cases hn : n < course.length
  · have hbus : (readSoFar m course ends n s).ssv.bootBus = .mastering m := if_neg fun h => Nat.not_le.mpr hn h.2
    have hsteps : (readSoFar m course ends n s).ssv.bootSteps = course.take n := rfl
    have hlength : (course.take n).length = n := List.length_take_of_le hn.le
    have hnext := hcourse.next n hn
    rw [bootStep_takes hbus hhigh (by rw [hsteps, hlength, hnext]), hsteps, List.take_append_getElem hn]
    simp only [hcourse.finished n hn]
    rfl
  · have hpast : course.length ≤ n := Nat.le_of_not_lt hn
    rw [readSoFar_succ_of_length_le hpast]
    by_cases hends : ends
    · exact bootStep_freed (if_pos ⟨hends, hpast⟩)
    · refine bootStep_waits (if_neg fun h => hends h.1) hhigh ?_
      show nextBusStep m (course.take n).length = none
      rw [List.take_of_length_le hpast]
      exact hcourse.waits hends

theorem ReadCourse.takeBootSteps_eq (hcourse : ReadCourse m course ends) (hhigh : m.bmdLow = false) (hpos : 0 < course.length)
    (hbus : s.ssv.bootBus = .mastering m) (hsteps : s.ssv.bootSteps = []) (n : Nat) :
    takeBootSteps n s = readSoFar m course ends n s := by
  induction n with
  | zero =>
    simp only [readSoFar, Nat.not_le.mpr hpos, and_false, if_false, List.take_zero]
    rw [← hbus, ← hsteps]
    rfl
  | succ n ih => rw [takeBootSteps_succ_last, ih, hcourse.bootStep_readSoFar hhigh]

end

/-! ### The courses -/

theorem readCourse_unanswered (hwrite : m.ackWrite = false) : ReadCourse m [.address 0x50 true false] True where
  next
    | 0, _ => congrArg (fun a => some (BusStep.address 0x50 true a)) hwrite
  finished
    | 0, _ => by decide
  waits h := absurd trivial h

theorem readCourse_noOffset (hwrite : m.ackWrite = true) (hoffset : m.ackOffset = false) :
    ReadCourse m [.address 0x50 true true, .sent 0 false] True where
  next
    | 0, _ => congrArg (fun a => some (BusStep.address 0x50 true a)) hwrite
    | 1, _ => congrArg (fun a => some (BusStep.sent 0 a)) hoffset
  finished
    | 0, _ | 1, _ => by decide
  waits h := absurd trivial h

theorem readCourse_noRead (hwrite : m.ackWrite = true) (hoffset : m.ackOffset = true) (hread : m.ackRead = false) :
    ReadCourse m [.address 0x50 true true, .sent 0 true, .address 0x50 false false] True where
  next
    | 0, _ => congrArg (fun a => some (BusStep.address 0x50 true a)) hwrite
    | 1, _ => congrArg (fun a => some (BusStep.sent 0 a)) hoffset
    | 2, _ => congrArg (fun a => some (BusStep.address 0x50 false a)) hread
  finished
    | 0, _ | 1, _ | 2, _ => by decide
  waits h := absurd trivial h

/-- The steps that take the bytes a device gives, 24 at most, each acknowledged but the 24th (R171). -/
def byteSteps (m : BootMemory) : List BusStep := (m.bytes.take 24).zipIdx.map (fun b => BusStep.taken b.1 (b.2 != 23))

theorem byteSteps_length (m : BootMemory) : (byteSteps m).length = min 24 m.bytes.length := by
  simp [byteSteps]

theorem refused_byteSteps (m : BootMemory) : ∀ x ∈ byteSteps m, x.refused = false := by
  intro x hx
  obtain ⟨b, -, rfl⟩ := List.mem_map.mp hx
  rfl

theorem takenBytes_taken (l : List (Byte × Nat)) :
    takenBytes (l.map (fun b => BusStep.taken b.1 (b.2 != 23))) = l.map Prod.fst := by
  induction l with
  | nil => rfl
  | cons b rest ih => exact congrArg (b.1 :: ·) ih

theorem takenBytes_byteSteps (m : BootMemory) (n : Nat) :
    takenBytes ((byteSteps m).take n) = (m.bytes.take 24).take n := by
  rw [byteSteps, ← List.map_take, takenBytes_taken, List.map_take, List.zipIdx_map_fst]

/-- A memory that acknowledges all three is read as far as it gives bytes, and the 24th ends the read (R171). -/
theorem readCourse_bytes (hwrite : m.ackWrite = true) (hoffset : m.ackOffset = true) (hread : m.ackRead = true) :
    ReadCourse m ([.address 0x50 true true, .sent 0 true, .address 0x50 false true] ++ byteSteps m)
      (24 ≤ m.bytes.length) where
  next
    | 0, _ => congrArg (fun a => some (BusStep.address 0x50 true a)) hwrite
    | 1, _ => congrArg (fun a => some (BusStep.sent 0 a)) hoffset
    | 2, _ => congrArg (fun a => some (BusStep.address 0x50 false a)) hread
    | k + 3, hk => by
      have hbyte : k < (byteSteps m).length := Nat.lt_of_add_lt_add_right hk
      have hgiven : k < m.bytes.length := by
        rw [byteSteps_length] at hbyte
        omega
      show (m.bytes[k]?).map _ = some (byteSteps m)[k]
      simp [byteSteps, hgiven]
  finished
    | 0, _ | 1, _ => by simp [readOver, takenBytes, BusStep.refused]
    | k + 2, hk => by
      have hbyte : k ≤ (byteSteps m).length := Nat.le_of_lt_succ (Nat.lt_of_add_lt_add_right hk)
      have hrefused : ((byteSteps m).take k).any BusStep.refused = false :=
        List.any_eq_false.mpr fun x hx => by simp [refused_byteSteps m x (List.mem_of_mem_take hx)]
      show (false || (false || (false || ((byteSteps m).take k).any BusStep.refused)) ||
        decide ((takenBytes ((byteSteps m).take k)).length = 24)) = true ↔ _
      simp only [hrefused, takenBytes_byteSteps, Bool.false_or, decide_eq_true_eq, List.length_take,
        List.length_append, List.length_cons, List.length_nil]
      rw [byteSteps_length] at hbyte ⊢
      omega
  waits h := by
    show nextBusStep m ((byteSteps m).length + 3) = none
    rw [byteSteps_length]
    simp only [nextBusStep, Option.map_eq_none_iff, List.getElem?_eq_none_iff]
    omega

/-- The steps a memory's answers bring about on a BMD found high, up to the first refused (R171). -/
def bootCourse (m : BootMemory) : List BusStep :=
  if m.ackWrite = false then [.address 0x50 true false]
  else if m.ackOffset = false then [.address 0x50 true true, .sent 0 false]
  else if m.ackRead = false then [.address 0x50 true true, .sent 0 true, .address 0x50 false false]
  else [.address 0x50 true true, .sent 0 true, .address 0x50 false true] ++ byteSteps m

/-- A memory that refuses a step, or gives its 24 bytes, brings the read to an end (R171). -/
abbrev endsRead (m : BootMemory) : Prop :=
  m.ackWrite = false ∨ m.ackOffset = false ∨ m.ackRead = false ∨ 24 ≤ m.bytes.length

theorem bootCourse_readCourse (m : BootMemory) : ReadCourse m (bootCourse m) (endsRead m) := by
  unfold bootCourse endsRead
  cases hwrite : m.ackWrite with
  | false => simpa using readCourse_unanswered hwrite
  | true =>
    cases hoffset : m.ackOffset with
    | false => simpa using readCourse_noOffset hwrite hoffset
    | true =>
      cases hread : m.ackRead with
      | false => simpa using readCourse_noRead hwrite hoffset hread
      | true => simpa using readCourse_bytes hwrite hoffset hread

theorem bootCourse_length_pos (m : BootMemory) : 0 < (bootCourse m).length := by
  unfold bootCourse
  split_ifs <;> exact Nat.succ_pos _

end

/-- Settles O5: a memory's answers give the course of its read, and the steps follow the course. -/
theorem bootMemoryRead : Obligations.BootMemoryRead := by
  refine ⟨fun s n => ⟨rfl, rfl⟩, fun s h => bootStep_freed h, fun s m hbus hsteps => ⟨bootStep_bmdLow hbus, ?_⟩⟩
  exact fun hhigh n => (bootCourse_readCourse m).takeBootSteps_eq hhigh (bootCourse_length_pos m) hbus hsteps n

/-! ## Configuration and waiting commands over a command (R174) -/

/-- What the release of RESETN and the end of boot set (R169, R171, R174), with the phase and the waiting commands. -/
def configView (s : State) : Phase × Receiver × BootFields × ConfigStatus × Byte × BootBus × List BusStep × List Instr :=
  (s.phase, s.ssv.own, s.ssv.boot, s.ssv.status, s.ssv.version, s.ssv.bootBus, s.ssv.bootSteps, s.pending)

theorem configView_eq_iff {s u : State} : configView u = configView s ↔
    u.phase = s.phase ∧ u.ssv.own = s.ssv.own ∧ u.ssv.boot = s.ssv.boot ∧ u.ssv.status = s.ssv.status ∧
    u.ssv.version = s.ssv.version ∧ u.ssv.bootBus = s.ssv.bootBus ∧ u.ssv.bootSteps = s.ssv.bootSteps ∧
    u.pending = s.pending := by
  simp [configView]

/-- An act that leaves the configuration and never turns station time back. -/
structure KeepsConfig (s u : State) : Prop where
  view : configView u = configView s
  clock : s.clock ≤ u.clock

section
variable {o s u v : State}

/-- An act of a block at one station time. -/
theorem KeepsConfig.of_act (view : configView u = configView s := by simp [configView])
    (clock : u.clock = s.clock := by simp) : KeepsConfig s u := ⟨view, clock.ge⟩

theorem KeepsConfig.refl (s : State) : KeepsConfig s s := .of_act rfl rfl

theorem KeepsConfig.trans (h : KeepsConfig s v) (h' : KeepsConfig v u) : KeepsConfig s u :=
  ⟨h'.view.trans h.view, h.clock.trans h'.clock⟩

theorem KeepsConfig.ite {p : Prop} [Decidable p] {a b : State} (ha : KeepsConfig o a) (hb : KeepsConfig o b) :
    KeepsConfig o (if p then a else b) := by
  split
  · exact ha
  · exact hb

theorem clock_le_advance (t : Nat) (s : State) : s.clock ≤ (advance t s).clock := by
  by_cases hrun : s.phase = .running
  · rw [advance_clock _ _ hrun]
    exact Nat.le_max_left ..
  · rw [advance_stopped _ _ hrun]

theorem KeepsConfig.advance (t : Nat) (s : State) : KeepsConfig s (advance t s) :=
  ⟨by simp [configView], clock_le_advance t s⟩

theorem KeepsConfig.after (t : Nat) (h : KeepsConfig (Machine.advance t s) u) : KeepsConfig s u := (advance t s).trans h

end

/-! ### Acts that look something up -/

theorem loseArbitration_keepsConfig (e : Entry) (bit : Nat) (s : State) : KeepsConfig s (loseArbitration e bit s) := by
  unfold loseArbitration
  exact .ite .of_act .of_act

theorem sendEnded_keepsConfig (e : Entry) (outcome : SendOutcome) (s : State) : KeepsConfig s (sendEnded e outcome s) := by
  obtain ⟨-, -, -, -, -, -, -, -, -, hssv, hclock, hphase, hpending⟩ := sendEnded_frame e outcome s
  exact .of_act (by rw [configView, hssv, hphase, hpending]; rfl) hclock

theorem completeSend_keepsConfig (e : Entry) (outcome : SendOutcome) (s : State) :
    KeepsConfig s (completeSend e outcome s) := by
  rw [completeSend_eq]
  exact (sendEnded_keepsConfig e outcome s).trans (.ite .of_act .of_act)

theorem resendOpen_keepsConfig (i : SlotNo) (s : State) : KeepsConfig s (resendOpen i s) := by
  unfold resendOpen
  split
  · exact .refl s
  · exact .ite .of_act (.refl s)

theorem wantExpiry_keepsConfig (i : SlotNo) (due : Nat) (s : State) : KeepsConfig s (wantExpiry i due s) := by
  have hresent := resendOpen_keepsConfig i (updateChart i (fun c => { c with wantDue := some (due + Config.wantMs) }) s)
  unfold wantExpiry
  exact (KeepsConfig.trans .of_act hresent).trans .of_act

theorem sweepOver_keepsConfig (i : SlotNo) (s : State) : KeepsConfig s (sweepOver i s) := by
  unfold sweepOver
  split
  · exact .of_act
  · exact .of_act

/-- A frame heard or damaged takes effect at its own station time (R109 to R112). -/
theorem frameEvent_keepsConfig (named : Fate → Bool) (t : Nat) (bits : List Bool) (s : State) :
    KeepsConfig s (frameEvent named t bits s) := by
  refine .after t ?_
  unfold frameEvent
  refine .ite ?_ (.refl _)
  split
  · exact .ite .of_act (.refl _)
  · exact .refl _

/-! ### The commands -/

theorem exec_completes (c : Instr) (s : State) : ∃ u, exec c s = .next u := by
  cases c <;> exact ⟨_, rfl⟩

/-- Behind the move of station time a command acts: outright, behind a guard, or on what it looks up and behind a guard. -/
theorem exec_keepsConfig {c : Instr} {s u : State} (hreset : ∀ pin, c ≠ .reset pin)
    (hend : ∀ steps, c ≠ .endOfBoot steps) (hexec : exec c s = .next u) : KeepsConfig s u := by
  cases c <;> cases hexec
  case reset.refl pin => exact absurd rfl (hreset pin)
  case endOfBoot.refl n => exact absurd rfl (hend n)
  case frameDamaged.refl | frameMalformed.refl | clash.refl | openHeard.refl | closeHeard.refl | dropHeard.refl |
      tallyHeard.refl | wantHeard.refl | claimHeard.refl | lineHeard.refl | restartHeard.refl | askHeard.refl |
      rosterHeard.refl | infoHeard.refl => exact frameEvent_keepsConfig _ _ _ s
  case wordDiscard.refl t => exact .advance t s
  case levelWord.refl t _ | gainDownEnd.refl t | phasingTimeout.refl t | lineIdle.refl t | silentEnd.refl t |
      tallyExpiry.refl t | rosterExpiry.refl t | minuteExpiry.refl t => exact .after t (.ite .of_act (.refl _))
  case lineBusy.refl t => exact .after t (.ite (.refl _) (.ite .of_act .of_act))
  case frameStart.refl t =>
    refine .after t (.ite ?_ (.refl _))
    split
    · exact .of_act rfl rfl
    · exact .refl _
  case arbitrationWon.refl t =>
    refine .after t ?_
    split
    · exact .of_act
    · exact .refl _
  case arbitrationLost.refl t bit =>
    refine .after t ?_
    split
    · exact .ite (loseArbitration_keepsConfig _ _ _) (.refl _)
    · exact .refl _
  case sendCompletion.refl t outcome =>
    refine .after t ?_
    split
    · exact .ite (completeSend_keepsConfig _ _ _) (.refl _)
    · exact .refl _
  case wantTimerExpiry.refl t i =>
    refine .after t ?_
    split
    · exact .ite (wantExpiry_keepsConfig _ _ _) (.refl _)
    · exact .refl _
  case sweepDeadline.refl t i =>
    refine .after t ?_
    split
    · exact .ite (sweepOver_keepsConfig _ _) (.refl _)
    · exact .refl _
  case silenceClose.refl t _ | claimLapse.refl t _ _ | heardLapse.refl t _ _ _ | reassemblyTimeout.refl t _ _ _ |
      peerAbsent.refl t _ =>
    refine .after t ?_
    split
    · exact .ite .of_act (.refl _)
    · exact .refl _

/-- Settles O3: each command's acts keep the configuration, whatever they look up. -/
theorem onlyResetAndBootConfigure : Obligations.OnlyResetAndBootConfigure := by
  intro c s hreset hend
  obtain ⟨u, hexec⟩ := exec_completes c s
  obtain ⟨hview, hclock⟩ := exec_keepsConfig hreset hend hexec
  obtain ⟨hphase, hown, hboot, hstatus, hversion, hbus, hsteps, hpending⟩ := configView_eq_iff.mp hview
  exact ⟨u, hexec, hphase, hown, hboot, hstatus, hversion, hbus, hsteps, hpending, hclock⟩

end Sys2Proof.Machine

/-! A step on a queue that holds commands: the complement of `step_idle`. -/

namespace Sys2Proof.Machine

/-- The command leaves the queue before it runs: it acts on a state that no longer holds it (the queue is the model's, notes/assumptions/7.md). -/
theorem step_front {c : Instr} {rest : List Instr} {s : State} (h : s.pending = c :: rest) :
    step s = exec c { s with pending := rest } := by
  unfold step
  rw [h]

/-- Settles O1: a queue that holds a command takes the second branch of the step. -/
theorem stepRunsFrontCommand : Obligations.StepRunsFrontCommand :=
  fun _ _ _ hfront => step_front hfront

end Sys2Proof.Machine
